-- ==== Sys2Proof/Word.lean ====
section
/-! DEFINITION. The word types of the core (`00_scope.md` section 4, R3, R4): byte, 16-bit word, 24-bit address, the
two operation widths, and an immediate constant. -/

namespace Sys2Proof

/-- The addressable unit (`20_memory.md` R41). -/
abbrev Byte := BitVec 8

/-- A 16-bit register or memory word. -/
abbrev Word := BitVec 16

/-- A 24-bit `bank:offset` address (`00_scope.md` R3). -/
abbrev Addr := BitVec 24

/-- The width of an operation: 8 or 16 bits (`10_state.md` R22). -/
inductive Width where
  | w8
  | w16
  deriving DecidableEq, Repr

/-- The constant of an immediate form: one or two operand bytes (`30_encoding.md` R75, `40_addressing_modes.md` R94). -/
inductive Imm where
  | byte (k : Byte)
  | word (k : Word)
  deriving DecidableEq, Repr

/-- The width of an immediate constant. -/
def Imm.width : Imm → Width
  | .byte _ => .w8
  | .word _ => .w16

end Sys2Proof
end

