-- ==== Sys2Proof/Config.lean ====
section
/-! DEFINITION. The parameters of `00_scope.md` R2 as plain data, the map of the address space they describe
(`20_memory.md` R51 to R57), and the free values. A machine holds one `Config` for life: no step changes it. -/

namespace Sys2Proof

/-- `MAP_FAMILY` (R2, `20_memory.md` R55). The fast variants do not change addressing. -/
inductive MapFamily where
  | lo | hi | fastLo | fastHi | exLo | exHi
  deriving DecidableEq, Repr

/-- What a region of the address space is (`20_memory.md` R51). An address in no region is Unmapped. `device` is the
parameter `BUS` of R2 and R40: an implementation of the two byte operations of which nothing is known (log entry 19). -/
inductive RegionKind where
  | workRam | registerWindow | rom | saveRam | device
  deriving DecidableEq, Repr

/-- One record of `REGION_MAP` (`20_memory.md` R51): a range of banks and a range of offsets, all bounds inclusive.
`base` and `stride` say which stored byte an address of the region names: the byte at
`base + (bank - bankLo) * stride + (offset - offLo)`; a stride of 0 mirrors one window over all its banks (R52).
`bankOrigin` is what a ROM region subtracts from the bank before R55's formula: `HIGH_BANK_ORIGIN` for a region of
the Lo family's upper mirror, 0 for a bank that needs no normalisation. -/
structure Region where
  bankLo : Nat
  bankHi : Nat
  offLo : Nat
  offHi : Nat
  kind : RegionKind
  base : Nat
  stride : Nat
  bankOrigin : Nat
  deriving DecidableEq, Repr

/-- `REG_WINDOW_POLICY` (R2, `20_memory.md` R53, D4). -/
inductive RegWindowPolicy where
  | refuse | stub
  deriving DecidableEq, Repr

/-- `WDM_BEHAVIOUR` (R2, `45_status_and_mode.md` R273, D12). -/
inductive WdmBehaviour where
  | fatal | nop2
  deriving DecidableEq, Repr

/-- `DECIMAL_ARITH` (R2, `42_arithmetic_logic.md` R183, D14). -/
inductive DecimalArith where
  | binary | refuse
  deriving DecidableEq, Repr

/-- The vector addresses `VEC_*` (R2, `60_exceptions.md` R303). -/
structure Vectors where
  reset : Addr
  nativeCop : Addr
  nativeBrk : Addr
  nativeAbort : Addr
  nativeNmi : Addr
  nativeIrq : Addr
  emuCop : Addr
  emuAbort : Addr
  emuNmi : Addr
  emuIrqBrk : Addr
  deriving DecidableEq, Repr

/-- The reset draws `RESET_A` to `RESET_N` (R2, `70_reset_and_hazards.md` R341): what reset leaves unspecified. -/
structure Draws where
  a : Word
  x : Word
  y : Word
  sl : Byte
  c : Bool
  z : Bool
  v : Bool
  n : Bool
  deriving DecidableEq, Repr

/-- The parameters of R2. `imageSize` and `headerOffset` belong to the cartridge image behind the ROM regions
(`20_memory.md` R55, R57). -/
structure Config where
  mapFamily : MapFamily
  regionMap : List Region
  imageSize : Nat
  headerOffset : Nat
  regWindowPolicy : RegWindowPolicy
  vectors : Vectors
  resetPb : Byte
  wdmBehaviour : WdmBehaviour
  emuDpPageWrap : Bool
  decimalArith : DecimalArith
  interruptInputs : Bool
  traceHook : Bool
  draws : Draws
  deriving DecidableEq, Repr

/-- The W65C816S vector addresses, R2's defaults (`60_exceptions.md` R303, D5). -/
def Vectors.default : Vectors where
  reset := 0x00FFFC
  nativeCop := 0x00FFE4
  nativeBrk := 0x00FFE6
  nativeAbort := 0x00FFE8
  nativeNmi := 0x00FFEA
  nativeIrq := 0x00FFEE
  emuCop := 0x00FFF4
  emuAbort := 0x00FFF8
  emuNmi := 0x00FFFA
  emuIrqBrk := 0x00FFFE

/-- One work RAM region over the whole space, each address its own byte: the flat storage of `95_test_vectors.md` T0. -/
def Region.flat : Region where
  bankLo := 0x00
  bankHi := 0xFF
  offLo := 0x0000
  offHi := 0xFFFF
  kind := .workRam
  base := 0
  stride := 0x10000
  bankOrigin := 0

/-- DESIGN CHOICE (log entry 5), unsafe: the reset draws of the reset state. The spec leaves them unspecified. -/
def Draws.zero : Draws where
  a := 0
  x := 0
  y := 0
  sl := 0
  c := false
  z := false
  v := false
  n := false

/-- The parameters at R2's defaults. DESIGN CHOICE (log entry 2), unsafe: the ones R2 leaves OPEN without a default
(`BUS`, `MAP_FAMILY`, `REGION_MAP`) are the flat storage of `95_test_vectors.md` T0 with no cartridge image. -/
def Config.default : Config where
  mapFamily := .lo
  regionMap := [Region.flat]
  imageSize := 0
  headerOffset := 0
  regWindowPolicy := .refuse
  vectors := Vectors.default
  resetPb := 0x00
  wdmBehaviour := .fatal
  emuDpPageWrap := false
  decimalArith := .binary
  interruptInputs := false
  traceHook := false
  draws := Draws.zero

/-- A free value (log entry 3): the byte of the `n`-th draw. Nothing constrains it (`20_memory.md` R53, D34;
`70_reset_and_hazards.md` R341). -/
opaque freeByte : Nat → Byte

/-- The state of the device behind the `device` regions: any plain data, written as one number (`20_memory.md` R40, D1). -/
abbrev DeviceState := Nat

/-- The fatal errors a Bus access can raise (`60_exceptions.md` R321). -/
inductive BusError where
  | unmapped | readOnly
  deriving DecidableEq, Repr, Inhabited

/-- `read_byte` of the parameter `BUS` (`20_memory.md` R40): the byte and the next device state, or none for the fatal
error of an unmapped address. It has no body, so that a claim holds for every implementation (log entry 19). -/
opaque deviceRead : DeviceState → Addr → Option (Byte × DeviceState)

/-- `write_byte` of the parameter `BUS` (R40): the next device state, or a fatal error (log entry 19). -/
opaque deviceWrite : DeviceState → Addr → Byte → Except BusError DeviceState

/-- What decoding needs beside the bytes (`30_encoding.md` R74, R75): the two width predicates, and whether `WDM` has a
signature byte. -/
structure DecodeContext where
  m8 : Bool
  x8 : Bool
  wdmSignature : Bool
  deriving DecidableEq, Repr

end Sys2Proof
end

