-- ==== Sys2Proof/Syntax.lean ====
section
/-! DEFINITION. The instructions: one constructor per row of `opcode_table.json` (`30_encoding.md` R77), named by mnemonic
and mode id (R74). A field holds the operand value the row's format gives, already assembled from its little-endian bytes.
The rows with operand bytes stand first and the rows without them last (Lean's compiler takes constructors with fields only
among the first 245 of a type); within each part the order is that of the rules. -/

namespace Sys2Proof

/-- The 256 rows of the opcode table. -/
inductive Instr where
  -- Loads, stores, transfers (`41_load_store_transfer.md`)
  /-- `A1` LDA `dxi` (R131). -/
  | ldaDxi (d : Byte)
  /-- `A3` LDA `sr` (R131). -/
  | ldaSr (d : Byte)
  /-- `A5` LDA `dp` (R131). -/
  | ldaDp (d : Byte)
  /-- `A7` LDA `dil` (R131). -/
  | ldaDil (d : Byte)
  /-- `A9` LDA `imm_m` (R131). -/
  | ldaImmM (k : Imm)
  /-- `AD` LDA `abs` (R131). -/
  | ldaAbs (a : Word)
  /-- `AF` LDA `abl` (R131). -/
  | ldaAbl (al : Addr)
  /-- `B1` LDA `diy` (R131). -/
  | ldaDiy (d : Byte)
  /-- `B2` LDA `dpi` (R131). -/
  | ldaDpi (d : Byte)
  /-- `B3` LDA `siy` (R131). -/
  | ldaSiy (d : Byte)
  /-- `B5` LDA `dpx` (R131). -/
  | ldaDpx (d : Byte)
  /-- `B7` LDA `dly` (R131). -/
  | ldaDly (d : Byte)
  /-- `B9` LDA `aby` (R131). -/
  | ldaAby (a : Word)
  /-- `BD` LDA `abx` (R131). -/
  | ldaAbx (a : Word)
  /-- `BF` LDA `alx` (R131). -/
  | ldaAlx (al : Addr)
  /-- `A2` LDX `imm_x` (R132). -/
  | ldxImmX (k : Imm)
  /-- `A6` LDX `dp` (R132). -/
  | ldxDp (d : Byte)
  /-- `AE` LDX `abs` (R132). -/
  | ldxAbs (a : Word)
  /-- `B6` LDX `dpy` (R132). -/
  | ldxDpy (d : Byte)
  /-- `BE` LDX `aby` (R132). -/
  | ldxAby (a : Word)
  /-- `A0` LDY `imm_x` (R133). -/
  | ldyImmX (k : Imm)
  /-- `A4` LDY `dp` (R133). -/
  | ldyDp (d : Byte)
  /-- `AC` LDY `abs` (R133). -/
  | ldyAbs (a : Word)
  /-- `B4` LDY `dpx` (R133). -/
  | ldyDpx (d : Byte)
  /-- `BC` LDY `abx` (R133). -/
  | ldyAbx (a : Word)
  /-- `81` STA `dxi` (R134). -/
  | staDxi (d : Byte)
  /-- `83` STA `sr` (R134). -/
  | staSr (d : Byte)
  /-- `85` STA `dp` (R134). -/
  | staDp (d : Byte)
  /-- `87` STA `dil` (R134). -/
  | staDil (d : Byte)
  /-- `8D` STA `abs` (R134). -/
  | staAbs (a : Word)
  /-- `8F` STA `abl` (R134). -/
  | staAbl (al : Addr)
  /-- `91` STA `diy` (R134). -/
  | staDiy (d : Byte)
  /-- `92` STA `dpi` (R134). -/
  | staDpi (d : Byte)
  /-- `93` STA `siy` (R134). -/
  | staSiy (d : Byte)
  /-- `95` STA `dpx` (R134). -/
  | staDpx (d : Byte)
  /-- `97` STA `dly` (R134). -/
  | staDly (d : Byte)
  /-- `99` STA `aby` (R134). -/
  | staAby (a : Word)
  /-- `9D` STA `abx` (R134). -/
  | staAbx (a : Word)
  /-- `9F` STA `alx` (R134). -/
  | staAlx (al : Addr)
  /-- `86` STX `dp` (R135). -/
  | stxDp (d : Byte)
  /-- `8E` STX `abs` (R135). -/
  | stxAbs (a : Word)
  /-- `96` STX `dpy` (R135). -/
  | stxDpy (d : Byte)
  /-- `84` STY `dp` (R136). -/
  | styDp (d : Byte)
  /-- `8C` STY `abs` (R136). -/
  | styAbs (a : Word)
  /-- `94` STY `dpx` (R136). -/
  | styDpx (d : Byte)
  /-- `64` STZ `dp` (R137). -/
  | stzDp (d : Byte)
  /-- `74` STZ `dpx` (R137). -/
  | stzDpx (d : Byte)
  /-- `9C` STZ `abs` (R137). -/
  | stzAbs (a : Word)
  /-- `9E` STZ `abx` (R137). -/
  | stzAbx (a : Word)
  -- Arithmetic, logic, compare, shift (`42_arithmetic_logic.md`)
  /-- `61` ADC `dxi` (R162). -/
  | adcDxi (d : Byte)
  /-- `63` ADC `sr` (R162). -/
  | adcSr (d : Byte)
  /-- `65` ADC `dp` (R162). -/
  | adcDp (d : Byte)
  /-- `67` ADC `dil` (R162). -/
  | adcDil (d : Byte)
  /-- `69` ADC `imm_m` (R162). -/
  | adcImmM (k : Imm)
  /-- `6D` ADC `abs` (R162). -/
  | adcAbs (a : Word)
  /-- `6F` ADC `abl` (R162). -/
  | adcAbl (al : Addr)
  /-- `71` ADC `diy` (R162). -/
  | adcDiy (d : Byte)
  /-- `72` ADC `dpi` (R162). -/
  | adcDpi (d : Byte)
  /-- `73` ADC `siy` (R162). -/
  | adcSiy (d : Byte)
  /-- `75` ADC `dpx` (R162). -/
  | adcDpx (d : Byte)
  /-- `77` ADC `dly` (R162). -/
  | adcDly (d : Byte)
  /-- `79` ADC `aby` (R162). -/
  | adcAby (a : Word)
  /-- `7D` ADC `abx` (R162). -/
  | adcAbx (a : Word)
  /-- `7F` ADC `alx` (R162). -/
  | adcAlx (al : Addr)
  /-- `E1` SBC `dxi` (R163). -/
  | sbcDxi (d : Byte)
  /-- `E3` SBC `sr` (R163). -/
  | sbcSr (d : Byte)
  /-- `E5` SBC `dp` (R163). -/
  | sbcDp (d : Byte)
  /-- `E7` SBC `dil` (R163). -/
  | sbcDil (d : Byte)
  /-- `E9` SBC `imm_m` (R163). -/
  | sbcImmM (k : Imm)
  /-- `ED` SBC `abs` (R163). -/
  | sbcAbs (a : Word)
  /-- `EF` SBC `abl` (R163). -/
  | sbcAbl (al : Addr)
  /-- `F1` SBC `diy` (R163). -/
  | sbcDiy (d : Byte)
  /-- `F2` SBC `dpi` (R163). -/
  | sbcDpi (d : Byte)
  /-- `F3` SBC `siy` (R163). -/
  | sbcSiy (d : Byte)
  /-- `F5` SBC `dpx` (R163). -/
  | sbcDpx (d : Byte)
  /-- `F7` SBC `dly` (R163). -/
  | sbcDly (d : Byte)
  /-- `F9` SBC `aby` (R163). -/
  | sbcAby (a : Word)
  /-- `FD` SBC `abx` (R163). -/
  | sbcAbx (a : Word)
  /-- `FF` SBC `alx` (R163). -/
  | sbcAlx (al : Addr)
  /-- `C1` CMP `dxi` (R164). -/
  | cmpDxi (d : Byte)
  /-- `C3` CMP `sr` (R164). -/
  | cmpSr (d : Byte)
  /-- `C5` CMP `dp` (R164). -/
  | cmpDp (d : Byte)
  /-- `C7` CMP `dil` (R164). -/
  | cmpDil (d : Byte)
  /-- `C9` CMP `imm_m` (R164). -/
  | cmpImmM (k : Imm)
  /-- `CD` CMP `abs` (R164). -/
  | cmpAbs (a : Word)
  /-- `CF` CMP `abl` (R164). -/
  | cmpAbl (al : Addr)
  /-- `D1` CMP `diy` (R164). -/
  | cmpDiy (d : Byte)
  /-- `D2` CMP `dpi` (R164). -/
  | cmpDpi (d : Byte)
  /-- `D3` CMP `siy` (R164). -/
  | cmpSiy (d : Byte)
  /-- `D5` CMP `dpx` (R164). -/
  | cmpDpx (d : Byte)
  /-- `D7` CMP `dly` (R164). -/
  | cmpDly (d : Byte)
  /-- `D9` CMP `aby` (R164). -/
  | cmpAby (a : Word)
  /-- `DD` CMP `abx` (R164). -/
  | cmpAbx (a : Word)
  /-- `DF` CMP `alx` (R164). -/
  | cmpAlx (al : Addr)
  /-- `E0` CPX `imm_x` (R165). -/
  | cpxImmX (k : Imm)
  /-- `E4` CPX `dp` (R165). -/
  | cpxDp (d : Byte)
  /-- `EC` CPX `abs` (R165). -/
  | cpxAbs (a : Word)
  /-- `C0` CPY `imm_x` (R166). -/
  | cpyImmX (k : Imm)
  /-- `C4` CPY `dp` (R166). -/
  | cpyDp (d : Byte)
  /-- `CC` CPY `abs` (R166). -/
  | cpyAbs (a : Word)
  /-- `21` AND `dxi` (R167). -/
  | andDxi (d : Byte)
  /-- `23` AND `sr` (R167). -/
  | andSr (d : Byte)
  /-- `25` AND `dp` (R167). -/
  | andDp (d : Byte)
  /-- `27` AND `dil` (R167). -/
  | andDil (d : Byte)
  /-- `29` AND `imm_m` (R167). -/
  | andImmM (k : Imm)
  /-- `2D` AND `abs` (R167). -/
  | andAbs (a : Word)
  /-- `2F` AND `abl` (R167). -/
  | andAbl (al : Addr)
  /-- `31` AND `diy` (R167). -/
  | andDiy (d : Byte)
  /-- `32` AND `dpi` (R167). -/
  | andDpi (d : Byte)
  /-- `33` AND `siy` (R167). -/
  | andSiy (d : Byte)
  /-- `35` AND `dpx` (R167). -/
  | andDpx (d : Byte)
  /-- `37` AND `dly` (R167). -/
  | andDly (d : Byte)
  /-- `39` AND `aby` (R167). -/
  | andAby (a : Word)
  /-- `3D` AND `abx` (R167). -/
  | andAbx (a : Word)
  /-- `3F` AND `alx` (R167). -/
  | andAlx (al : Addr)
  /-- `01` ORA `dxi` (R168). -/
  | oraDxi (d : Byte)
  /-- `03` ORA `sr` (R168). -/
  | oraSr (d : Byte)
  /-- `05` ORA `dp` (R168). -/
  | oraDp (d : Byte)
  /-- `07` ORA `dil` (R168). -/
  | oraDil (d : Byte)
  /-- `09` ORA `imm_m` (R168). -/
  | oraImmM (k : Imm)
  /-- `0D` ORA `abs` (R168). -/
  | oraAbs (a : Word)
  /-- `0F` ORA `abl` (R168). -/
  | oraAbl (al : Addr)
  /-- `11` ORA `diy` (R168). -/
  | oraDiy (d : Byte)
  /-- `12` ORA `dpi` (R168). -/
  | oraDpi (d : Byte)
  /-- `13` ORA `siy` (R168). -/
  | oraSiy (d : Byte)
  /-- `15` ORA `dpx` (R168). -/
  | oraDpx (d : Byte)
  /-- `17` ORA `dly` (R168). -/
  | oraDly (d : Byte)
  /-- `19` ORA `aby` (R168). -/
  | oraAby (a : Word)
  /-- `1D` ORA `abx` (R168). -/
  | oraAbx (a : Word)
  /-- `1F` ORA `alx` (R168). -/
  | oraAlx (al : Addr)
  /-- `41` EOR `dxi` (R169). -/
  | eorDxi (d : Byte)
  /-- `43` EOR `sr` (R169). -/
  | eorSr (d : Byte)
  /-- `45` EOR `dp` (R169). -/
  | eorDp (d : Byte)
  /-- `47` EOR `dil` (R169). -/
  | eorDil (d : Byte)
  /-- `49` EOR `imm_m` (R169). -/
  | eorImmM (k : Imm)
  /-- `4D` EOR `abs` (R169). -/
  | eorAbs (a : Word)
  /-- `4F` EOR `abl` (R169). -/
  | eorAbl (al : Addr)
  /-- `51` EOR `diy` (R169). -/
  | eorDiy (d : Byte)
  /-- `52` EOR `dpi` (R169). -/
  | eorDpi (d : Byte)
  /-- `53` EOR `siy` (R169). -/
  | eorSiy (d : Byte)
  /-- `55` EOR `dpx` (R169). -/
  | eorDpx (d : Byte)
  /-- `57` EOR `dly` (R169). -/
  | eorDly (d : Byte)
  /-- `59` EOR `aby` (R169). -/
  | eorAby (a : Word)
  /-- `5D` EOR `abx` (R169). -/
  | eorAbx (a : Word)
  /-- `5F` EOR `alx` (R169). -/
  | eorAlx (al : Addr)
  /-- `24` BIT `dp` (R170). -/
  | bitDp (d : Byte)
  /-- `2C` BIT `abs` (R170). -/
  | bitAbs (a : Word)
  /-- `34` BIT `dpx` (R170). -/
  | bitDpx (d : Byte)
  /-- `3C` BIT `abx` (R170). -/
  | bitAbx (a : Word)
  /-- `89` BIT `imm_m` (R170). -/
  | bitImmM (k : Imm)
  /-- `E6` INC `dp` (R171). -/
  | incDp (d : Byte)
  /-- `EE` INC `abs` (R171). -/
  | incAbs (a : Word)
  /-- `F6` INC `dpx` (R171). -/
  | incDpx (d : Byte)
  /-- `FE` INC `abx` (R171). -/
  | incAbx (a : Word)
  /-- `C6` DEC `dp` (R172). -/
  | decDp (d : Byte)
  /-- `CE` DEC `abs` (R172). -/
  | decAbs (a : Word)
  /-- `D6` DEC `dpx` (R172). -/
  | decDpx (d : Byte)
  /-- `DE` DEC `abx` (R172). -/
  | decAbx (a : Word)
  /-- `06` ASL `dp` (R177). -/
  | aslDp (d : Byte)
  /-- `0E` ASL `abs` (R177). -/
  | aslAbs (a : Word)
  /-- `16` ASL `dpx` (R177). -/
  | aslDpx (d : Byte)
  /-- `1E` ASL `abx` (R177). -/
  | aslAbx (a : Word)
  /-- `46` LSR `dp` (R178). -/
  | lsrDp (d : Byte)
  /-- `4E` LSR `abs` (R178). -/
  | lsrAbs (a : Word)
  /-- `56` LSR `dpx` (R178). -/
  | lsrDpx (d : Byte)
  /-- `5E` LSR `abx` (R178). -/
  | lsrAbx (a : Word)
  /-- `26` ROL `dp` (R179). -/
  | rolDp (d : Byte)
  /-- `2E` ROL `abs` (R179). -/
  | rolAbs (a : Word)
  /-- `36` ROL `dpx` (R179). -/
  | rolDpx (d : Byte)
  /-- `3E` ROL `abx` (R179). -/
  | rolAbx (a : Word)
  /-- `66` ROR `dp` (R180). -/
  | rorDp (d : Byte)
  /-- `6E` ROR `abs` (R180). -/
  | rorAbs (a : Word)
  /-- `76` ROR `dpx` (R180). -/
  | rorDpx (d : Byte)
  /-- `7E` ROR `abx` (R180). -/
  | rorAbx (a : Word)
  /-- `04` TSB `dp` (R181). -/
  | tsbDp (d : Byte)
  /-- `0C` TSB `abs` (R181). -/
  | tsbAbs (a : Word)
  /-- `14` TRB `dp` (R182). -/
  | trbDp (d : Byte)
  /-- `1C` TRB `abs` (R182). -/
  | trbAbs (a : Word)
  -- Control transfer (`43_control_transfer.md`)
  /-- `10` BPL `rel` (R201). -/
  | bpl (disp : Byte)
  /-- `30` BMI `rel` (R202). -/
  | bmi (disp : Byte)
  /-- `50` BVC `rel` (R203). -/
  | bvc (disp : Byte)
  /-- `70` BVS `rel` (R204). -/
  | bvs (disp : Byte)
  /-- `90` BCC `rel` (R205). -/
  | bcc (disp : Byte)
  /-- `B0` BCS `rel` (R206). -/
  | bcs (disp : Byte)
  /-- `D0` BNE `rel` (R207). -/
  | bne (disp : Byte)
  /-- `F0` BEQ `rel` (R208). -/
  | beq (disp : Byte)
  /-- `80` BRA `rel` (R209). -/
  | bra (disp : Byte)
  /-- `82` BRL `rell` (R210). -/
  | brl (disp : Word)
  /-- `4C` JMP `abs_pb` (R211). -/
  | jmpAbsPb (a : Word)
  /-- `6C` JMP `abi` (R211). -/
  | jmpAbi (a : Word)
  /-- `7C` JMP `axi` (R211). -/
  | jmpAxi (a : Word)
  /-- `5C` JML `abl_pc` (R212). -/
  | jmlAblPc (t : Addr)
  /-- `DC` JML `ail` (R212). -/
  | jmlAil (a : Word)
  /-- `20` JSR `abs_pb` (R213). -/
  | jsrAbsPb (a : Word)
  /-- `FC` JSR `axi` (R213). -/
  | jsrAxi (a : Word)
  /-- `22` JSL `abl_pc` (R214). -/
  | jsl (t : Addr)
  -- Stack (`44_stack.md`)
  /-- `F4` PEA `stk_abs` (R245). -/
  | pea (v : Word)
  /-- `D4` PEI `stk_dpi` (R246). -/
  | pei (d : Byte)
  /-- `62` PER `stk_rell` (R247). -/
  | per (disp : Word)
  -- Status and mode (`45_status_and_mode.md`)
  /-- `C2` REP `imm8` (R267). -/
  | rep (k : Byte)
  /-- `E2` SEP `imm8` (R268). -/
  | sep (k : Byte)
  /-- `42` WDM `wdm` (R273). -/
  | wdm (signature : Option Byte)
  -- Block move (`46_block_move.md`)
  /-- `54` MVN `blk` (R280). -/
  | mvn (dst : Byte) (src : Byte)
  /-- `44` MVP `blk` (R281). -/
  | mvp (dst : Byte) (src : Byte)
  -- System (`47_system.md`)
  /-- `00` BRK `stk_int` (R290). -/
  | brk (signature : Byte)
  /-- `02` COP `stk_int` (R291). -/
  | cop (signature : Byte)
  -- Loads, stores, transfers, no operand bytes (`41_load_store_transfer.md`)
  /-- `AA` TAX `imp` (R138). -/
  | tax
  /-- `A8` TAY `imp` (R139). -/
  | tay
  /-- `8A` TXA `imp` (R140). -/
  | txa
  /-- `98` TYA `imp` (R141). -/
  | tya
  /-- `9B` TXY `imp` (R142). -/
  | txy
  /-- `BB` TYX `imp` (R143). -/
  | tyx
  /-- `BA` TSX `imp` (R144). -/
  | tsx
  /-- `9A` TXS `imp` (R145). -/
  | txs
  /-- `5B` TCD `imp` (R146). -/
  | tcd
  /-- `7B` TDC `imp` (R147). -/
  | tdc
  /-- `1B` TCS `imp` (R148). -/
  | tcs
  /-- `3B` TSC `imp` (R149). -/
  | tsc
  /-- `EB` XBA `imp` (R150). -/
  | xba
  -- Arithmetic, logic, compare, shift, no operand bytes (`42_arithmetic_logic.md`)
  /-- `1A` INC `acc` (R171). -/
  | incAcc
  /-- `3A` DEC `acc` (R172). -/
  | decAcc
  /-- `E8` INX `imp` (R173). -/
  | inx
  /-- `C8` INY `imp` (R174). -/
  | iny
  /-- `CA` DEX `imp` (R175). -/
  | dex
  /-- `88` DEY `imp` (R176). -/
  | dey
  /-- `0A` ASL `acc` (R177). -/
  | aslAcc
  /-- `4A` LSR `acc` (R178). -/
  | lsrAcc
  /-- `2A` ROL `acc` (R179). -/
  | rolAcc
  /-- `6A` ROR `acc` (R180). -/
  | rorAcc
  -- Control transfer, no operand bytes (`43_control_transfer.md`)
  /-- `60` RTS `stk_pull` (R215). -/
  | rts
  /-- `6B` RTL `stk_pull` (R216). -/
  | rtl
  -- Stack, no operand bytes (`44_stack.md`)
  /-- `48` PHA `stk_push` (R231). -/
  | pha
  /-- `DA` PHX `stk_push` (R232). -/
  | phx
  /-- `5A` PHY `stk_push` (R233). -/
  | phy
  /-- `08` PHP `stk_push` (R234). -/
  | php
  /-- `8B` PHB `stk_push` (R235). -/
  | phb
  /-- `0B` PHD `stk_push` (R236). -/
  | phd
  /-- `4B` PHK `stk_push` (R237). -/
  | phk
  /-- `68` PLA `stk_pull` (R238). -/
  | pla
  /-- `FA` PLX `stk_pull` (R239). -/
  | plx
  /-- `7A` PLY `stk_pull` (R240). -/
  | ply
  /-- `28` PLP `stk_pull` (R241). -/
  | plp
  /-- `AB` PLB `stk_pull` (R242). -/
  | plb
  /-- `2B` PLD `stk_pull` (R243). -/
  | pld
  -- Status and mode, no operand bytes (`45_status_and_mode.md`)
  /-- `18` CLC `imp` (R260). -/
  | clc
  /-- `38` SEC `imp` (R261). -/
  | sec
  /-- `58` CLI `imp` (R262). -/
  | cli
  /-- `78` SEI `imp` (R263). -/
  | sei
  /-- `D8` CLD `imp` (R264). -/
  | cld
  /-- `F8` SED `imp` (R265). -/
  | sed
  /-- `B8` CLV `imp` (R266). -/
  | clv
  /-- `FB` XCE `imp` (R270). -/
  | xce
  /-- `EA` NOP `imp` (R271). -/
  | nop
  -- System, no operand bytes (`47_system.md`)
  /-- `40` RTI `stk_pull` (R292). -/
  | rti
  /-- `CB` WAI `imp` (R293). -/
  | wai
  /-- `DB` STP `imp` (R294). -/
  | stp
  deriving DecidableEq, Repr

end Sys2Proof
end

