-- ==== Sys2Proof/WellFormed.lean ====
section
/-! DEFINITION. Which terms of `Instr` are instructions under given widths (`30_encoding.md` R75, R79): an immediate
constant has the width in force, and `WDM` has a signature byte exactly when its behaviour fetches one. Every other
form has one length, and the types of its fields admit exactly the values its operand bytes can hold. -/

namespace Sys2Proof

/-- The width a narrow-width predicate selects (`10_state.md` R22). -/
def widthOf (narrow : Bool) : Width := if narrow then .w8 else .w16

/-- The well-formed instructions under the given decoding context. -/
def WellFormed (c : DecodeContext) : Instr → Bool
  | .oraImmM k | .andImmM k | .eorImmM k | .adcImmM k | .bitImmM k | .ldaImmM k | .cmpImmM k | .sbcImmM k =>
    k.width == widthOf c.m8
  | .ldyImmX k | .ldxImmX k | .cpyImmX k | .cpxImmX k => k.width == widthOf c.x8
  | .wdm signature => signature.isSome == c.wdmSignature
  | _ => true

end Sys2Proof
end

