-- ==== Sys2Proof/Decode.lean ====
section
/-! DEFINITION. Decoding and encoding (`30_encoding.md`): byte and word assembly, the operand forms of R74, the opcode
table R77, a decoder total on any list of bytes, and the encoder. -/

namespace Sys2Proof

/-! ## Bytes, words, addresses (`00_scope.md` R3, R4; `20_memory.md` R45) -/

/-- `v[7:0]`. -/
def lowByte (v : Word) : Byte := v.extractLsb' 0 8

/-- `v[15:8]`. -/
def highByte (v : Word) : Byte := v.extractLsb' 8 8

/-- `hi :: lo` as a word. -/
def mkWord (hi lo : Byte) : Word := hi ++ lo

/-- `bank :: offset` as a 24-bit address. -/
def mkAddr (bank : Byte) (off : Word) : Addr := bank ++ off

/-- The bank of an address, `addr[23:16]`. -/
def bankOf (a : Addr) : Byte := a.extractLsb' 16 8

/-- The offset of an address, `addr[15:0]`. -/
def offsetOf (a : Addr) : Word := a.extractLsb' 0 16

/-- `zext_16` of a byte. -/
def zextByte (b : Byte) : Word := b.setWidth 16

/-- `zext_24` of a word. -/
def zextWord (v : Word) : Addr := v.setWidth 24

/-- `sext_16` of a byte (R76). -/
def sextByte (b : Byte) : Word := b.signExtend 16

/-- The value of an immediate constant, zero-extended (R94). -/
def Imm.value : Imm → Word
  | .byte k => zextByte k
  | .word k => k

/-! ## Operand forms (R74) -/

/-- The memory modes that locate data (`40_addressing_modes.md` R96 to R116), each with its operand bytes. -/
inductive MemMode where
  | abs (a : Word)
  | abx (a : Word)
  | aby (a : Word)
  | abl (al : Addr)
  | alx (al : Addr)
  | dp (d : Byte)
  | dpx (d : Byte)
  | dpy (d : Byte)
  | dpi (d : Byte)
  | dxi (d : Byte)
  | diy (d : Byte)
  | dil (d : Byte)
  | dly (d : Byte)
  | sr (d : Byte)
  | siy (d : Byte)
  deriving DecidableEq, Repr

/-- The operand of a data-fetching instruction (R91): a constant at the accumulator or index width, or memory. -/
inductive DataOperand where
  | immM (k : Imm)
  | immX (k : Imm)
  | mem (m : MemMode)
  deriving DecidableEq, Repr

/-- The control-transfer modes (`40_addressing_modes.md` R96, R110, R112 to R114). -/
inductive Target where
  | absPb (a : Word)
  | ablPc (t : Addr)
  | abi (a : Word)
  | axi (a : Word)
  | ail (a : Word)
  deriving DecidableEq, Repr

/-- The operand of an instruction, by the mode id of R74. -/
inductive Operand where
  | imp
  | acc
  | data (o : DataOperand)
  | imm8 (k : Byte)
  | target (t : Target)
  | rel (disp : Byte)
  | rell (disp : Word)
  | stkPush
  | stkPull
  | stkAbs (v : Word)
  | stkDpi (d : Byte)
  | stkRell (disp : Word)
  | stkInt (signature : Byte)
  | blk (dst src : Byte)
  | wdm (signature : Option Byte)
  deriving DecidableEq, Repr

/-- The mode ids (R74). -/
inductive ModeId where
  | imp | acc | immM | immX | imm8 | abs | absPb | abl | ablPc | abx | aby | alx
  | dp | dpx | dpy | dpi | dxi | diy | dil | dly | sr | siy | abi | axi | ail | rel | rell
  | stkPush | stkPull | stkAbs | stkDpi | stkRell | stkInt | blk | wdm
  deriving DecidableEq, Repr

/-- The mode id of a memory mode. -/
def MemMode.mode : MemMode → ModeId
  | .abs _ => .abs
  | .abx _ => .abx
  | .aby _ => .aby
  | .abl _ => .abl
  | .alx _ => .alx
  | .dp _ => .dp
  | .dpx _ => .dpx
  | .dpy _ => .dpy
  | .dpi _ => .dpi
  | .dxi _ => .dxi
  | .diy _ => .diy
  | .dil _ => .dil
  | .dly _ => .dly
  | .sr _ => .sr
  | .siy _ => .siy

/-- The mode id of a control-transfer mode. -/
def Target.mode : Target → ModeId
  | .absPb _ => .absPb
  | .ablPc _ => .ablPc
  | .abi _ => .abi
  | .axi _ => .axi
  | .ail _ => .ail

/-- The mode id of an operand. -/
def Operand.mode : Operand → ModeId
  | .imp => .imp
  | .acc => .acc
  | .data (.immM _) => .immM
  | .data (.immX _) => .immX
  | .data (.mem m) => m.mode
  | .imm8 _ => .imm8
  | .target t => t.mode
  | .rel _ => .rel
  | .rell _ => .rell
  | .stkPush => .stkPush
  | .stkPull => .stkPull
  | .stkAbs _ => .stkAbs
  | .stkDpi _ => .stkDpi
  | .stkRell _ => .stkRell
  | .stkInt _ => .stkInt
  | .blk _ _ => .blk
  | .wdm _ => .wdm

/-- The 92 mnemonics (R78). -/
inductive Mnemonic where
  | lda | ldx | ldy | sta | stx | sty | stz | tax | tay | txa | tya | txy
  | tyx | tsx | txs | tcd | tdc | tcs | tsc | xba | adc | sbc | cmp | cpx
  | cpy | and | ora | eor | bit | inc | dec | inx | iny | dex | dey | asl
  | lsr | rol | ror | tsb | trb | bpl | bmi | bvc | bvs | bcc | bcs | bne
  | beq | bra | brl | jmp | jml | jsr | jsl | rts | rtl | pha | phx | phy
  | php | phb | phd | phk | pla | plx | ply | plp | plb | pld | pea | pei
  | per | clc | sec | cli | sei | cld | sed | clv | rep | sep | xce | nop
  | wdm | mvn | mvp | brk | cop | rti | wai | stp
  deriving DecidableEq, Repr

/-- A mnemonic as the table spells it. -/
def Mnemonic.name : Mnemonic → String
  | .lda => "LDA"
  | .ldx => "LDX"
  | .ldy => "LDY"
  | .sta => "STA"
  | .stx => "STX"
  | .sty => "STY"
  | .stz => "STZ"
  | .tax => "TAX"
  | .tay => "TAY"
  | .txa => "TXA"
  | .tya => "TYA"
  | .txy => "TXY"
  | .tyx => "TYX"
  | .tsx => "TSX"
  | .txs => "TXS"
  | .tcd => "TCD"
  | .tdc => "TDC"
  | .tcs => "TCS"
  | .tsc => "TSC"
  | .xba => "XBA"
  | .adc => "ADC"
  | .sbc => "SBC"
  | .cmp => "CMP"
  | .cpx => "CPX"
  | .cpy => "CPY"
  | .and => "AND"
  | .ora => "ORA"
  | .eor => "EOR"
  | .bit => "BIT"
  | .inc => "INC"
  | .dec => "DEC"
  | .inx => "INX"
  | .iny => "INY"
  | .dex => "DEX"
  | .dey => "DEY"
  | .asl => "ASL"
  | .lsr => "LSR"
  | .rol => "ROL"
  | .ror => "ROR"
  | .tsb => "TSB"
  | .trb => "TRB"
  | .bpl => "BPL"
  | .bmi => "BMI"
  | .bvc => "BVC"
  | .bvs => "BVS"
  | .bcc => "BCC"
  | .bcs => "BCS"
  | .bne => "BNE"
  | .beq => "BEQ"
  | .bra => "BRA"
  | .brl => "BRL"
  | .jmp => "JMP"
  | .jml => "JML"
  | .jsr => "JSR"
  | .jsl => "JSL"
  | .rts => "RTS"
  | .rtl => "RTL"
  | .pha => "PHA"
  | .phx => "PHX"
  | .phy => "PHY"
  | .php => "PHP"
  | .phb => "PHB"
  | .phd => "PHD"
  | .phk => "PHK"
  | .pla => "PLA"
  | .plx => "PLX"
  | .ply => "PLY"
  | .plp => "PLP"
  | .plb => "PLB"
  | .pld => "PLD"
  | .pea => "PEA"
  | .pei => "PEI"
  | .per => "PER"
  | .clc => "CLC"
  | .sec => "SEC"
  | .cli => "CLI"
  | .sei => "SEI"
  | .cld => "CLD"
  | .sed => "SED"
  | .clv => "CLV"
  | .rep => "REP"
  | .sep => "SEP"
  | .xce => "XCE"
  | .nop => "NOP"
  | .wdm => "WDM"
  | .mvn => "MVN"
  | .mvp => "MVP"
  | .brk => "BRK"
  | .cop => "COP"
  | .rti => "RTI"
  | .wai => "WAI"
  | .stp => "STP"

/-! ## An instruction's mnemonic, opcode and operand (R78) -/

/-- The mnemonic of an instruction. -/
def Instr.mnemonic : Instr → Mnemonic
  | .ldaDxi _ | .ldaSr _ | .ldaDp _ | .ldaDil _ | .ldaImmM _ | .ldaAbs _ | .ldaAbl _ | .ldaDiy _ | .ldaDpi _
    | .ldaSiy _ | .ldaDpx _ | .ldaDly _ | .ldaAby _ | .ldaAbx _ | .ldaAlx _ => .lda
  | .ldxImmX _ | .ldxDp _ | .ldxAbs _ | .ldxDpy _ | .ldxAby _ => .ldx
  | .ldyImmX _ | .ldyDp _ | .ldyAbs _ | .ldyDpx _ | .ldyAbx _ => .ldy
  | .staDxi _ | .staSr _ | .staDp _ | .staDil _ | .staAbs _ | .staAbl _ | .staDiy _ | .staDpi _ | .staSiy _
    | .staDpx _ | .staDly _ | .staAby _ | .staAbx _ | .staAlx _ => .sta
  | .stxDp _ | .stxAbs _ | .stxDpy _ => .stx
  | .styDp _ | .styAbs _ | .styDpx _ => .sty
  | .stzDp _ | .stzDpx _ | .stzAbs _ | .stzAbx _ => .stz
  | .tax => .tax
  | .tay => .tay
  | .txa => .txa
  | .tya => .tya
  | .txy => .txy
  | .tyx => .tyx
  | .tsx => .tsx
  | .txs => .txs
  | .tcd => .tcd
  | .tdc => .tdc
  | .tcs => .tcs
  | .tsc => .tsc
  | .xba => .xba
  | .adcDxi _ | .adcSr _ | .adcDp _ | .adcDil _ | .adcImmM _ | .adcAbs _ | .adcAbl _ | .adcDiy _ | .adcDpi _
    | .adcSiy _ | .adcDpx _ | .adcDly _ | .adcAby _ | .adcAbx _ | .adcAlx _ => .adc
  | .sbcDxi _ | .sbcSr _ | .sbcDp _ | .sbcDil _ | .sbcImmM _ | .sbcAbs _ | .sbcAbl _ | .sbcDiy _ | .sbcDpi _
    | .sbcSiy _ | .sbcDpx _ | .sbcDly _ | .sbcAby _ | .sbcAbx _ | .sbcAlx _ => .sbc
  | .cmpDxi _ | .cmpSr _ | .cmpDp _ | .cmpDil _ | .cmpImmM _ | .cmpAbs _ | .cmpAbl _ | .cmpDiy _ | .cmpDpi _
    | .cmpSiy _ | .cmpDpx _ | .cmpDly _ | .cmpAby _ | .cmpAbx _ | .cmpAlx _ => .cmp
  | .cpxImmX _ | .cpxDp _ | .cpxAbs _ => .cpx
  | .cpyImmX _ | .cpyDp _ | .cpyAbs _ => .cpy
  | .andDxi _ | .andSr _ | .andDp _ | .andDil _ | .andImmM _ | .andAbs _ | .andAbl _ | .andDiy _ | .andDpi _
    | .andSiy _ | .andDpx _ | .andDly _ | .andAby _ | .andAbx _ | .andAlx _ => .and
  | .oraDxi _ | .oraSr _ | .oraDp _ | .oraDil _ | .oraImmM _ | .oraAbs _ | .oraAbl _ | .oraDiy _ | .oraDpi _
    | .oraSiy _ | .oraDpx _ | .oraDly _ | .oraAby _ | .oraAbx _ | .oraAlx _ => .ora
  | .eorDxi _ | .eorSr _ | .eorDp _ | .eorDil _ | .eorImmM _ | .eorAbs _ | .eorAbl _ | .eorDiy _ | .eorDpi _
    | .eorSiy _ | .eorDpx _ | .eorDly _ | .eorAby _ | .eorAbx _ | .eorAlx _ => .eor
  | .bitDp _ | .bitAbs _ | .bitDpx _ | .bitAbx _ | .bitImmM _ => .bit
  | .incDp _ | .incAbs _ | .incDpx _ | .incAbx _ | .incAcc => .inc
  | .decDp _ | .decAbs _ | .decDpx _ | .decAbx _ | .decAcc => .dec
  | .inx => .inx
  | .iny => .iny
  | .dex => .dex
  | .dey => .dey
  | .aslDp _ | .aslAbs _ | .aslDpx _ | .aslAbx _ | .aslAcc => .asl
  | .lsrDp _ | .lsrAbs _ | .lsrDpx _ | .lsrAbx _ | .lsrAcc => .lsr
  | .rolDp _ | .rolAbs _ | .rolDpx _ | .rolAbx _ | .rolAcc => .rol
  | .rorDp _ | .rorAbs _ | .rorDpx _ | .rorAbx _ | .rorAcc => .ror
  | .tsbDp _ | .tsbAbs _ => .tsb
  | .trbDp _ | .trbAbs _ => .trb
  | .bpl _ => .bpl
  | .bmi _ => .bmi
  | .bvc _ => .bvc
  | .bvs _ => .bvs
  | .bcc _ => .bcc
  | .bcs _ => .bcs
  | .bne _ => .bne
  | .beq _ => .beq
  | .bra _ => .bra
  | .brl _ => .brl
  | .jmpAbsPb _ | .jmpAbi _ | .jmpAxi _ => .jmp
  | .jmlAblPc _ | .jmlAil _ => .jml
  | .jsrAbsPb _ | .jsrAxi _ => .jsr
  | .jsl _ => .jsl
  | .rts => .rts
  | .rtl => .rtl
  | .pha => .pha
  | .phx => .phx
  | .phy => .phy
  | .php => .php
  | .phb => .phb
  | .phd => .phd
  | .phk => .phk
  | .pla => .pla
  | .plx => .plx
  | .ply => .ply
  | .plp => .plp
  | .plb => .plb
  | .pld => .pld
  | .pea _ => .pea
  | .pei _ => .pei
  | .per _ => .per
  | .clc => .clc
  | .sec => .sec
  | .cli => .cli
  | .sei => .sei
  | .cld => .cld
  | .sed => .sed
  | .clv => .clv
  | .rep _ => .rep
  | .sep _ => .sep
  | .xce => .xce
  | .nop => .nop
  | .wdm _ => .wdm
  | .mvn _ _ => .mvn
  | .mvp _ _ => .mvp
  | .brk _ => .brk
  | .cop _ => .cop
  | .rti => .rti
  | .wai => .wai
  | .stp => .stp

/-- The opcode byte of an instruction. -/
def Instr.opcode : Instr → Byte
  | .ldaDxi _ => 0xA1
  | .ldaSr _ => 0xA3
  | .ldaDp _ => 0xA5
  | .ldaDil _ => 0xA7
  | .ldaImmM _ => 0xA9
  | .ldaAbs _ => 0xAD
  | .ldaAbl _ => 0xAF
  | .ldaDiy _ => 0xB1
  | .ldaDpi _ => 0xB2
  | .ldaSiy _ => 0xB3
  | .ldaDpx _ => 0xB5
  | .ldaDly _ => 0xB7
  | .ldaAby _ => 0xB9
  | .ldaAbx _ => 0xBD
  | .ldaAlx _ => 0xBF
  | .ldxImmX _ => 0xA2
  | .ldxDp _ => 0xA6
  | .ldxAbs _ => 0xAE
  | .ldxDpy _ => 0xB6
  | .ldxAby _ => 0xBE
  | .ldyImmX _ => 0xA0
  | .ldyDp _ => 0xA4
  | .ldyAbs _ => 0xAC
  | .ldyDpx _ => 0xB4
  | .ldyAbx _ => 0xBC
  | .staDxi _ => 0x81
  | .staSr _ => 0x83
  | .staDp _ => 0x85
  | .staDil _ => 0x87
  | .staAbs _ => 0x8D
  | .staAbl _ => 0x8F
  | .staDiy _ => 0x91
  | .staDpi _ => 0x92
  | .staSiy _ => 0x93
  | .staDpx _ => 0x95
  | .staDly _ => 0x97
  | .staAby _ => 0x99
  | .staAbx _ => 0x9D
  | .staAlx _ => 0x9F
  | .stxDp _ => 0x86
  | .stxAbs _ => 0x8E
  | .stxDpy _ => 0x96
  | .styDp _ => 0x84
  | .styAbs _ => 0x8C
  | .styDpx _ => 0x94
  | .stzDp _ => 0x64
  | .stzDpx _ => 0x74
  | .stzAbs _ => 0x9C
  | .stzAbx _ => 0x9E
  | .adcDxi _ => 0x61
  | .adcSr _ => 0x63
  | .adcDp _ => 0x65
  | .adcDil _ => 0x67
  | .adcImmM _ => 0x69
  | .adcAbs _ => 0x6D
  | .adcAbl _ => 0x6F
  | .adcDiy _ => 0x71
  | .adcDpi _ => 0x72
  | .adcSiy _ => 0x73
  | .adcDpx _ => 0x75
  | .adcDly _ => 0x77
  | .adcAby _ => 0x79
  | .adcAbx _ => 0x7D
  | .adcAlx _ => 0x7F
  | .sbcDxi _ => 0xE1
  | .sbcSr _ => 0xE3
  | .sbcDp _ => 0xE5
  | .sbcDil _ => 0xE7
  | .sbcImmM _ => 0xE9
  | .sbcAbs _ => 0xED
  | .sbcAbl _ => 0xEF
  | .sbcDiy _ => 0xF1
  | .sbcDpi _ => 0xF2
  | .sbcSiy _ => 0xF3
  | .sbcDpx _ => 0xF5
  | .sbcDly _ => 0xF7
  | .sbcAby _ => 0xF9
  | .sbcAbx _ => 0xFD
  | .sbcAlx _ => 0xFF
  | .cmpDxi _ => 0xC1
  | .cmpSr _ => 0xC3
  | .cmpDp _ => 0xC5
  | .cmpDil _ => 0xC7
  | .cmpImmM _ => 0xC9
  | .cmpAbs _ => 0xCD
  | .cmpAbl _ => 0xCF
  | .cmpDiy _ => 0xD1
  | .cmpDpi _ => 0xD2
  | .cmpSiy _ => 0xD3
  | .cmpDpx _ => 0xD5
  | .cmpDly _ => 0xD7
  | .cmpAby _ => 0xD9
  | .cmpAbx _ => 0xDD
  | .cmpAlx _ => 0xDF
  | .cpxImmX _ => 0xE0
  | .cpxDp _ => 0xE4
  | .cpxAbs _ => 0xEC
  | .cpyImmX _ => 0xC0
  | .cpyDp _ => 0xC4
  | .cpyAbs _ => 0xCC
  | .andDxi _ => 0x21
  | .andSr _ => 0x23
  | .andDp _ => 0x25
  | .andDil _ => 0x27
  | .andImmM _ => 0x29
  | .andAbs _ => 0x2D
  | .andAbl _ => 0x2F
  | .andDiy _ => 0x31
  | .andDpi _ => 0x32
  | .andSiy _ => 0x33
  | .andDpx _ => 0x35
  | .andDly _ => 0x37
  | .andAby _ => 0x39
  | .andAbx _ => 0x3D
  | .andAlx _ => 0x3F
  | .oraDxi _ => 0x01
  | .oraSr _ => 0x03
  | .oraDp _ => 0x05
  | .oraDil _ => 0x07
  | .oraImmM _ => 0x09
  | .oraAbs _ => 0x0D
  | .oraAbl _ => 0x0F
  | .oraDiy _ => 0x11
  | .oraDpi _ => 0x12
  | .oraSiy _ => 0x13
  | .oraDpx _ => 0x15
  | .oraDly _ => 0x17
  | .oraAby _ => 0x19
  | .oraAbx _ => 0x1D
  | .oraAlx _ => 0x1F
  | .eorDxi _ => 0x41
  | .eorSr _ => 0x43
  | .eorDp _ => 0x45
  | .eorDil _ => 0x47
  | .eorImmM _ => 0x49
  | .eorAbs _ => 0x4D
  | .eorAbl _ => 0x4F
  | .eorDiy _ => 0x51
  | .eorDpi _ => 0x52
  | .eorSiy _ => 0x53
  | .eorDpx _ => 0x55
  | .eorDly _ => 0x57
  | .eorAby _ => 0x59
  | .eorAbx _ => 0x5D
  | .eorAlx _ => 0x5F
  | .bitDp _ => 0x24
  | .bitAbs _ => 0x2C
  | .bitDpx _ => 0x34
  | .bitAbx _ => 0x3C
  | .bitImmM _ => 0x89
  | .incDp _ => 0xE6
  | .incAbs _ => 0xEE
  | .incDpx _ => 0xF6
  | .incAbx _ => 0xFE
  | .decDp _ => 0xC6
  | .decAbs _ => 0xCE
  | .decDpx _ => 0xD6
  | .decAbx _ => 0xDE
  | .aslDp _ => 0x06
  | .aslAbs _ => 0x0E
  | .aslDpx _ => 0x16
  | .aslAbx _ => 0x1E
  | .lsrDp _ => 0x46
  | .lsrAbs _ => 0x4E
  | .lsrDpx _ => 0x56
  | .lsrAbx _ => 0x5E
  | .rolDp _ => 0x26
  | .rolAbs _ => 0x2E
  | .rolDpx _ => 0x36
  | .rolAbx _ => 0x3E
  | .rorDp _ => 0x66
  | .rorAbs _ => 0x6E
  | .rorDpx _ => 0x76
  | .rorAbx _ => 0x7E
  | .tsbDp _ => 0x04
  | .tsbAbs _ => 0x0C
  | .trbDp _ => 0x14
  | .trbAbs _ => 0x1C
  | .bpl _ => 0x10
  | .bmi _ => 0x30
  | .bvc _ => 0x50
  | .bvs _ => 0x70
  | .bcc _ => 0x90
  | .bcs _ => 0xB0
  | .bne _ => 0xD0
  | .beq _ => 0xF0
  | .bra _ => 0x80
  | .brl _ => 0x82
  | .jmpAbsPb _ => 0x4C
  | .jmpAbi _ => 0x6C
  | .jmpAxi _ => 0x7C
  | .jmlAblPc _ => 0x5C
  | .jmlAil _ => 0xDC
  | .jsrAbsPb _ => 0x20
  | .jsrAxi _ => 0xFC
  | .jsl _ => 0x22
  | .pea _ => 0xF4
  | .pei _ => 0xD4
  | .per _ => 0x62
  | .rep _ => 0xC2
  | .sep _ => 0xE2
  | .wdm _ => 0x42
  | .mvn _ _ => 0x54
  | .mvp _ _ => 0x44
  | .brk _ => 0x00
  | .cop _ => 0x02
  | .tax => 0xAA
  | .tay => 0xA8
  | .txa => 0x8A
  | .tya => 0x98
  | .txy => 0x9B
  | .tyx => 0xBB
  | .tsx => 0xBA
  | .txs => 0x9A
  | .tcd => 0x5B
  | .tdc => 0x7B
  | .tcs => 0x1B
  | .tsc => 0x3B
  | .xba => 0xEB
  | .incAcc => 0x1A
  | .decAcc => 0x3A
  | .inx => 0xE8
  | .iny => 0xC8
  | .dex => 0xCA
  | .dey => 0x88
  | .aslAcc => 0x0A
  | .lsrAcc => 0x4A
  | .rolAcc => 0x2A
  | .rorAcc => 0x6A
  | .rts => 0x60
  | .rtl => 0x6B
  | .pha => 0x48
  | .phx => 0xDA
  | .phy => 0x5A
  | .php => 0x08
  | .phb => 0x8B
  | .phd => 0x0B
  | .phk => 0x4B
  | .pla => 0x68
  | .plx => 0xFA
  | .ply => 0x7A
  | .plp => 0x28
  | .plb => 0xAB
  | .pld => 0x2B
  | .clc => 0x18
  | .sec => 0x38
  | .cli => 0x58
  | .sei => 0x78
  | .cld => 0xD8
  | .sed => 0xF8
  | .clv => 0xB8
  | .xce => 0xFB
  | .nop => 0xEA
  | .rti => 0x40
  | .wai => 0xCB
  | .stp => 0xDB

/-- The operand of an instruction, by its mode. -/
def Instr.operand : Instr → Operand
  | .ldaDxi d => .data (.mem (.dxi d))
  | .ldaSr d => .data (.mem (.sr d))
  | .ldaDp d => .data (.mem (.dp d))
  | .ldaDil d => .data (.mem (.dil d))
  | .ldaImmM k => .data (.immM k)
  | .ldaAbs a => .data (.mem (.abs a))
  | .ldaAbl al => .data (.mem (.abl al))
  | .ldaDiy d => .data (.mem (.diy d))
  | .ldaDpi d => .data (.mem (.dpi d))
  | .ldaSiy d => .data (.mem (.siy d))
  | .ldaDpx d => .data (.mem (.dpx d))
  | .ldaDly d => .data (.mem (.dly d))
  | .ldaAby a => .data (.mem (.aby a))
  | .ldaAbx a => .data (.mem (.abx a))
  | .ldaAlx al => .data (.mem (.alx al))
  | .ldxImmX k => .data (.immX k)
  | .ldxDp d => .data (.mem (.dp d))
  | .ldxAbs a => .data (.mem (.abs a))
  | .ldxDpy d => .data (.mem (.dpy d))
  | .ldxAby a => .data (.mem (.aby a))
  | .ldyImmX k => .data (.immX k)
  | .ldyDp d => .data (.mem (.dp d))
  | .ldyAbs a => .data (.mem (.abs a))
  | .ldyDpx d => .data (.mem (.dpx d))
  | .ldyAbx a => .data (.mem (.abx a))
  | .staDxi d => .data (.mem (.dxi d))
  | .staSr d => .data (.mem (.sr d))
  | .staDp d => .data (.mem (.dp d))
  | .staDil d => .data (.mem (.dil d))
  | .staAbs a => .data (.mem (.abs a))
  | .staAbl al => .data (.mem (.abl al))
  | .staDiy d => .data (.mem (.diy d))
  | .staDpi d => .data (.mem (.dpi d))
  | .staSiy d => .data (.mem (.siy d))
  | .staDpx d => .data (.mem (.dpx d))
  | .staDly d => .data (.mem (.dly d))
  | .staAby a => .data (.mem (.aby a))
  | .staAbx a => .data (.mem (.abx a))
  | .staAlx al => .data (.mem (.alx al))
  | .stxDp d => .data (.mem (.dp d))
  | .stxAbs a => .data (.mem (.abs a))
  | .stxDpy d => .data (.mem (.dpy d))
  | .styDp d => .data (.mem (.dp d))
  | .styAbs a => .data (.mem (.abs a))
  | .styDpx d => .data (.mem (.dpx d))
  | .stzDp d => .data (.mem (.dp d))
  | .stzDpx d => .data (.mem (.dpx d))
  | .stzAbs a => .data (.mem (.abs a))
  | .stzAbx a => .data (.mem (.abx a))
  | .adcDxi d => .data (.mem (.dxi d))
  | .adcSr d => .data (.mem (.sr d))
  | .adcDp d => .data (.mem (.dp d))
  | .adcDil d => .data (.mem (.dil d))
  | .adcImmM k => .data (.immM k)
  | .adcAbs a => .data (.mem (.abs a))
  | .adcAbl al => .data (.mem (.abl al))
  | .adcDiy d => .data (.mem (.diy d))
  | .adcDpi d => .data (.mem (.dpi d))
  | .adcSiy d => .data (.mem (.siy d))
  | .adcDpx d => .data (.mem (.dpx d))
  | .adcDly d => .data (.mem (.dly d))
  | .adcAby a => .data (.mem (.aby a))
  | .adcAbx a => .data (.mem (.abx a))
  | .adcAlx al => .data (.mem (.alx al))
  | .sbcDxi d => .data (.mem (.dxi d))
  | .sbcSr d => .data (.mem (.sr d))
  | .sbcDp d => .data (.mem (.dp d))
  | .sbcDil d => .data (.mem (.dil d))
  | .sbcImmM k => .data (.immM k)
  | .sbcAbs a => .data (.mem (.abs a))
  | .sbcAbl al => .data (.mem (.abl al))
  | .sbcDiy d => .data (.mem (.diy d))
  | .sbcDpi d => .data (.mem (.dpi d))
  | .sbcSiy d => .data (.mem (.siy d))
  | .sbcDpx d => .data (.mem (.dpx d))
  | .sbcDly d => .data (.mem (.dly d))
  | .sbcAby a => .data (.mem (.aby a))
  | .sbcAbx a => .data (.mem (.abx a))
  | .sbcAlx al => .data (.mem (.alx al))
  | .cmpDxi d => .data (.mem (.dxi d))
  | .cmpSr d => .data (.mem (.sr d))
  | .cmpDp d => .data (.mem (.dp d))
  | .cmpDil d => .data (.mem (.dil d))
  | .cmpImmM k => .data (.immM k)
  | .cmpAbs a => .data (.mem (.abs a))
  | .cmpAbl al => .data (.mem (.abl al))
  | .cmpDiy d => .data (.mem (.diy d))
  | .cmpDpi d => .data (.mem (.dpi d))
  | .cmpSiy d => .data (.mem (.siy d))
  | .cmpDpx d => .data (.mem (.dpx d))
  | .cmpDly d => .data (.mem (.dly d))
  | .cmpAby a => .data (.mem (.aby a))
  | .cmpAbx a => .data (.mem (.abx a))
  | .cmpAlx al => .data (.mem (.alx al))
  | .cpxImmX k => .data (.immX k)
  | .cpxDp d => .data (.mem (.dp d))
  | .cpxAbs a => .data (.mem (.abs a))
  | .cpyImmX k => .data (.immX k)
  | .cpyDp d => .data (.mem (.dp d))
  | .cpyAbs a => .data (.mem (.abs a))
  | .andDxi d => .data (.mem (.dxi d))
  | .andSr d => .data (.mem (.sr d))
  | .andDp d => .data (.mem (.dp d))
  | .andDil d => .data (.mem (.dil d))
  | .andImmM k => .data (.immM k)
  | .andAbs a => .data (.mem (.abs a))
  | .andAbl al => .data (.mem (.abl al))
  | .andDiy d => .data (.mem (.diy d))
  | .andDpi d => .data (.mem (.dpi d))
  | .andSiy d => .data (.mem (.siy d))
  | .andDpx d => .data (.mem (.dpx d))
  | .andDly d => .data (.mem (.dly d))
  | .andAby a => .data (.mem (.aby a))
  | .andAbx a => .data (.mem (.abx a))
  | .andAlx al => .data (.mem (.alx al))
  | .oraDxi d => .data (.mem (.dxi d))
  | .oraSr d => .data (.mem (.sr d))
  | .oraDp d => .data (.mem (.dp d))
  | .oraDil d => .data (.mem (.dil d))
  | .oraImmM k => .data (.immM k)
  | .oraAbs a => .data (.mem (.abs a))
  | .oraAbl al => .data (.mem (.abl al))
  | .oraDiy d => .data (.mem (.diy d))
  | .oraDpi d => .data (.mem (.dpi d))
  | .oraSiy d => .data (.mem (.siy d))
  | .oraDpx d => .data (.mem (.dpx d))
  | .oraDly d => .data (.mem (.dly d))
  | .oraAby a => .data (.mem (.aby a))
  | .oraAbx a => .data (.mem (.abx a))
  | .oraAlx al => .data (.mem (.alx al))
  | .eorDxi d => .data (.mem (.dxi d))
  | .eorSr d => .data (.mem (.sr d))
  | .eorDp d => .data (.mem (.dp d))
  | .eorDil d => .data (.mem (.dil d))
  | .eorImmM k => .data (.immM k)
  | .eorAbs a => .data (.mem (.abs a))
  | .eorAbl al => .data (.mem (.abl al))
  | .eorDiy d => .data (.mem (.diy d))
  | .eorDpi d => .data (.mem (.dpi d))
  | .eorSiy d => .data (.mem (.siy d))
  | .eorDpx d => .data (.mem (.dpx d))
  | .eorDly d => .data (.mem (.dly d))
  | .eorAby a => .data (.mem (.aby a))
  | .eorAbx a => .data (.mem (.abx a))
  | .eorAlx al => .data (.mem (.alx al))
  | .bitDp d => .data (.mem (.dp d))
  | .bitAbs a => .data (.mem (.abs a))
  | .bitDpx d => .data (.mem (.dpx d))
  | .bitAbx a => .data (.mem (.abx a))
  | .bitImmM k => .data (.immM k)
  | .incDp d => .data (.mem (.dp d))
  | .incAbs a => .data (.mem (.abs a))
  | .incDpx d => .data (.mem (.dpx d))
  | .incAbx a => .data (.mem (.abx a))
  | .decDp d => .data (.mem (.dp d))
  | .decAbs a => .data (.mem (.abs a))
  | .decDpx d => .data (.mem (.dpx d))
  | .decAbx a => .data (.mem (.abx a))
  | .aslDp d => .data (.mem (.dp d))
  | .aslAbs a => .data (.mem (.abs a))
  | .aslDpx d => .data (.mem (.dpx d))
  | .aslAbx a => .data (.mem (.abx a))
  | .lsrDp d => .data (.mem (.dp d))
  | .lsrAbs a => .data (.mem (.abs a))
  | .lsrDpx d => .data (.mem (.dpx d))
  | .lsrAbx a => .data (.mem (.abx a))
  | .rolDp d => .data (.mem (.dp d))
  | .rolAbs a => .data (.mem (.abs a))
  | .rolDpx d => .data (.mem (.dpx d))
  | .rolAbx a => .data (.mem (.abx a))
  | .rorDp d => .data (.mem (.dp d))
  | .rorAbs a => .data (.mem (.abs a))
  | .rorDpx d => .data (.mem (.dpx d))
  | .rorAbx a => .data (.mem (.abx a))
  | .tsbDp d => .data (.mem (.dp d))
  | .tsbAbs a => .data (.mem (.abs a))
  | .trbDp d => .data (.mem (.dp d))
  | .trbAbs a => .data (.mem (.abs a))
  | .bpl disp => .rel disp
  | .bmi disp => .rel disp
  | .bvc disp => .rel disp
  | .bvs disp => .rel disp
  | .bcc disp => .rel disp
  | .bcs disp => .rel disp
  | .bne disp => .rel disp
  | .beq disp => .rel disp
  | .bra disp => .rel disp
  | .brl disp => .rell disp
  | .jmpAbsPb a => .target (.absPb a)
  | .jmpAbi a => .target (.abi a)
  | .jmpAxi a => .target (.axi a)
  | .jmlAblPc t => .target (.ablPc t)
  | .jmlAil a => .target (.ail a)
  | .jsrAbsPb a => .target (.absPb a)
  | .jsrAxi a => .target (.axi a)
  | .jsl t => .target (.ablPc t)
  | .pea v => .stkAbs v
  | .pei d => .stkDpi d
  | .per disp => .stkRell disp
  | .rep k => .imm8 k
  | .sep k => .imm8 k
  | .wdm signature => .wdm signature
  | .mvn dst src => .blk dst src
  | .mvp dst src => .blk dst src
  | .brk signature => .stkInt signature
  | .cop signature => .stkInt signature
  | .tax => .imp
  | .tay => .imp
  | .txa => .imp
  | .tya => .imp
  | .txy => .imp
  | .tyx => .imp
  | .tsx => .imp
  | .txs => .imp
  | .tcd => .imp
  | .tdc => .imp
  | .tcs => .imp
  | .tsc => .imp
  | .xba => .imp
  | .incAcc => .acc
  | .decAcc => .acc
  | .inx => .imp
  | .iny => .imp
  | .dex => .imp
  | .dey => .imp
  | .aslAcc => .acc
  | .lsrAcc => .acc
  | .rolAcc => .acc
  | .rorAcc => .acc
  | .rts => .stkPull
  | .rtl => .stkPull
  | .pha => .stkPush
  | .phx => .stkPush
  | .phy => .stkPush
  | .php => .stkPush
  | .phb => .stkPush
  | .phd => .stkPush
  | .phk => .stkPush
  | .pla => .stkPull
  | .plx => .stkPull
  | .ply => .stkPull
  | .plp => .stkPull
  | .plb => .stkPull
  | .pld => .stkPull
  | .clc => .imp
  | .sec => .imp
  | .cli => .imp
  | .sei => .imp
  | .cld => .imp
  | .sed => .imp
  | .clv => .imp
  | .xce => .imp
  | .nop => .imp
  | .rti => .stkPull
  | .wai => .imp
  | .stp => .imp

/-! ## The opcode table (R77) -/

/-- One entry of the table: the operand bytes of its mode (R74) and the instruction they make. -/
inductive Row where
  | none (i : Instr)
  | byte (mk : Byte → Instr)
  | word (mk : Word → Instr)
  | long (mk : Addr → Instr)
  | immM (mk : Imm → Instr)
  | immX (mk : Imm → Instr)
  | banks (mk : Byte → Byte → Instr)
  | wdm (mk : Option Byte → Instr)

/-- Row `0x` of R77. -/
def opcodeRow0 : List Row :=
  [.byte .brk, .byte .oraDxi, .byte .cop, .byte .oraSr, .byte .tsbDp, .byte .oraDp, .byte .aslDp,
   .byte .oraDil, .none .php, .immM .oraImmM, .none .aslAcc, .none .phd, .word .tsbAbs, .word .oraAbs,
   .word .aslAbs, .long .oraAbl]

/-- Row `1x` of R77. -/
def opcodeRow1 : List Row :=
  [.byte .bpl, .byte .oraDiy, .byte .oraDpi, .byte .oraSiy, .byte .trbDp, .byte .oraDpx, .byte .aslDpx,
   .byte .oraDly, .none .clc, .word .oraAby, .none .incAcc, .none .tcs, .word .trbAbs, .word .oraAbx,
   .word .aslAbx, .long .oraAlx]

/-- Row `2x` of R77. -/
def opcodeRow2 : List Row :=
  [.word .jsrAbsPb, .byte .andDxi, .long .jsl, .byte .andSr, .byte .bitDp, .byte .andDp, .byte .rolDp,
   .byte .andDil, .none .plp, .immM .andImmM, .none .rolAcc, .none .pld, .word .bitAbs, .word .andAbs,
   .word .rolAbs, .long .andAbl]

/-- Row `3x` of R77. -/
def opcodeRow3 : List Row :=
  [.byte .bmi, .byte .andDiy, .byte .andDpi, .byte .andSiy, .byte .bitDpx, .byte .andDpx, .byte .rolDpx,
   .byte .andDly, .none .sec, .word .andAby, .none .decAcc, .none .tsc, .word .bitAbx, .word .andAbx,
   .word .rolAbx, .long .andAlx]

/-- Row `4x` of R77. -/
def opcodeRow4 : List Row :=
  [.none .rti, .byte .eorDxi, .wdm .wdm, .byte .eorSr, .banks .mvp, .byte .eorDp, .byte .lsrDp, .byte .eorDil,
   .none .pha, .immM .eorImmM, .none .lsrAcc, .none .phk, .word .jmpAbsPb, .word .eorAbs, .word .lsrAbs,
   .long .eorAbl]

/-- Row `5x` of R77. -/
def opcodeRow5 : List Row :=
  [.byte .bvc, .byte .eorDiy, .byte .eorDpi, .byte .eorSiy, .banks .mvn, .byte .eorDpx, .byte .lsrDpx,
   .byte .eorDly, .none .cli, .word .eorAby, .none .phy, .none .tcd, .long .jmlAblPc, .word .eorAbx,
   .word .lsrAbx, .long .eorAlx]

/-- Row `6x` of R77. -/
def opcodeRow6 : List Row :=
  [.none .rts, .byte .adcDxi, .word .per, .byte .adcSr, .byte .stzDp, .byte .adcDp, .byte .rorDp,
   .byte .adcDil, .none .pla, .immM .adcImmM, .none .rorAcc, .none .rtl, .word .jmpAbi, .word .adcAbs,
   .word .rorAbs, .long .adcAbl]

/-- Row `7x` of R77. -/
def opcodeRow7 : List Row :=
  [.byte .bvs, .byte .adcDiy, .byte .adcDpi, .byte .adcSiy, .byte .stzDpx, .byte .adcDpx, .byte .rorDpx,
   .byte .adcDly, .none .sei, .word .adcAby, .none .ply, .none .tdc, .word .jmpAxi, .word .adcAbx,
   .word .rorAbx, .long .adcAlx]

/-- Row `8x` of R77. -/
def opcodeRow8 : List Row :=
  [.byte .bra, .byte .staDxi, .word .brl, .byte .staSr, .byte .styDp, .byte .staDp, .byte .stxDp,
   .byte .staDil, .none .dey, .immM .bitImmM, .none .txa, .none .phb, .word .styAbs, .word .staAbs,
   .word .stxAbs, .long .staAbl]

/-- Row `9x` of R77. -/
def opcodeRow9 : List Row :=
  [.byte .bcc, .byte .staDiy, .byte .staDpi, .byte .staSiy, .byte .styDpx, .byte .staDpx, .byte .stxDpy,
   .byte .staDly, .none .tya, .word .staAby, .none .txs, .none .txy, .word .stzAbs, .word .staAbx,
   .word .stzAbx, .long .staAlx]

/-- Row `Ax` of R77. -/
def opcodeRowA : List Row :=
  [.immX .ldyImmX, .byte .ldaDxi, .immX .ldxImmX, .byte .ldaSr, .byte .ldyDp, .byte .ldaDp, .byte .ldxDp,
   .byte .ldaDil, .none .tay, .immM .ldaImmM, .none .tax, .none .plb, .word .ldyAbs, .word .ldaAbs,
   .word .ldxAbs, .long .ldaAbl]

/-- Row `Bx` of R77. -/
def opcodeRowB : List Row :=
  [.byte .bcs, .byte .ldaDiy, .byte .ldaDpi, .byte .ldaSiy, .byte .ldyDpx, .byte .ldaDpx, .byte .ldxDpy,
   .byte .ldaDly, .none .clv, .word .ldaAby, .none .tsx, .none .tyx, .word .ldyAbx, .word .ldaAbx,
   .word .ldxAby, .long .ldaAlx]

/-- Row `Cx` of R77. -/
def opcodeRowC : List Row :=
  [.immX .cpyImmX, .byte .cmpDxi, .byte .rep, .byte .cmpSr, .byte .cpyDp, .byte .cmpDp, .byte .decDp,
   .byte .cmpDil, .none .iny, .immM .cmpImmM, .none .dex, .none .wai, .word .cpyAbs, .word .cmpAbs,
   .word .decAbs, .long .cmpAbl]

/-- Row `Dx` of R77. -/
def opcodeRowD : List Row :=
  [.byte .bne, .byte .cmpDiy, .byte .cmpDpi, .byte .cmpSiy, .byte .pei, .byte .cmpDpx, .byte .decDpx,
   .byte .cmpDly, .none .cld, .word .cmpAby, .none .phx, .none .stp, .word .jmlAil, .word .cmpAbx,
   .word .decAbx, .long .cmpAlx]

/-- Row `Ex` of R77. -/
def opcodeRowE : List Row :=
  [.immX .cpxImmX, .byte .sbcDxi, .byte .sep, .byte .sbcSr, .byte .cpxDp, .byte .sbcDp, .byte .incDp,
   .byte .sbcDil, .none .inx, .immM .sbcImmM, .none .nop, .none .xba, .word .cpxAbs, .word .sbcAbs,
   .word .incAbs, .long .sbcAbl]

/-- Row `Fx` of R77. -/
def opcodeRowF : List Row :=
  [.byte .beq, .byte .sbcDiy, .byte .sbcDpi, .byte .sbcSiy, .word .pea, .byte .sbcDpx, .byte .incDpx,
   .byte .sbcDly, .none .sed, .word .sbcAby, .none .plx, .none .xce, .word .jsrAxi, .word .sbcAbx,
   .word .incAbx, .long .sbcAlx]

/-- `OPCODE_TABLE` (R77), row by row of the high nibble. -/
def opcodeTable : List Row :=
  opcodeRow0 ++ opcodeRow1 ++ opcodeRow2 ++ opcodeRow3 ++ opcodeRow4 ++ opcodeRow5 ++ opcodeRow6 ++ opcodeRow7 ++
    opcodeRow8 ++ opcodeRow9 ++ opcodeRowA ++ opcodeRowB ++ opcodeRowC ++ opcodeRowD ++ opcodeRowE ++ opcodeRowF

/-- The entry of an opcode byte. The table has 256 entries, so the default is never used. -/
def rowOf (op : Byte) : Row := opcodeTable.getD op.toNat (.none .nop)

/-- How many bytes an immediate has at a width (R75). -/
def immLength (narrow : Bool) : Nat := if narrow then 1 else 2

/-- How many operand bytes follow the opcode (R74, R75). -/
def Row.length (c : DecodeContext) : Row → Nat
  | .none _ => 0
  | .byte _ => 1
  | .word _ => 2
  | .long _ => 3
  | .immM _ => immLength c.m8
  | .immX _ => immLength c.x8
  | .banks _ => 2
  | .wdm _ => if c.wdmSignature then 1 else 0

/-! ## Decoding -/

/-- Why bytes do not decode: there are too few of them. No opcode is undefined (R73, R80). -/
inductive DecodeError where
  /-- No byte at all. -/
  | empty
  /-- An opcode with fewer operand bytes than its mode has. -/
  | truncated (op : Byte)
  deriving DecidableEq, Repr

/-- An immediate constant of one or two bytes, low byte first (R94). -/
def takeImm (narrow : Bool) (mk : Imm → Instr) (op : Byte) :
    List Byte → Except DecodeError (Instr × List Byte)
  | b0 :: b1 :: rest => if narrow then .ok (mk (.byte b0), b1 :: rest) else .ok (mk (.word (mkWord b1 b0)), rest)
  | [b0] => if narrow then .ok (mk (.byte b0), []) else .error (.truncated op)
  | [] => .error (.truncated op)

/-- The instruction a table entry makes of the bytes after the opcode, with the bytes left over (R74). -/
def Row.build (c : DecodeContext) (op : Byte) : Row → List Byte → Except DecodeError (Instr × List Byte)
  | .none i, rest => .ok (i, rest)
  | .byte mk, b0 :: rest => .ok (mk b0, rest)
  | .byte _, [] => .error (.truncated op)
  | .word mk, b0 :: b1 :: rest => .ok (mk (mkWord b1 b0), rest)
  | .word _, [_] => .error (.truncated op)
  | .word _, [] => .error (.truncated op)
  | .long mk, b0 :: b1 :: b2 :: rest => .ok (mk (mkAddr b2 (mkWord b1 b0)), rest)
  | .long _, [_, _] => .error (.truncated op)
  | .long _, [_] => .error (.truncated op)
  | .long _, [] => .error (.truncated op)
  | .immM mk, bytes => takeImm c.m8 mk op bytes
  | .immX mk, bytes => takeImm c.x8 mk op bytes
  | .banks mk, b0 :: b1 :: rest => .ok (mk b0 b1, rest)
  | .banks _, [_] => .error (.truncated op)
  | .banks _, [] => .error (.truncated op)
  | .wdm mk, bytes =>
    if c.wdmSignature then
      match bytes with
      | b0 :: rest => .ok (mk (some b0), rest)
      | [] => .error (.truncated op)
    else .ok (mk Option.none, bytes)

/-- The decoder (R70, R71): the first instruction of a list of bytes and the bytes after it. -/
def decode (c : DecodeContext) : List Byte → Except DecodeError (Instr × List Byte)
  | [] => .error .empty
  | op :: rest => (rowOf op).build c op rest

/-! ## Encoding (R74) -/

/-- A word's two bytes, low byte first. -/
def wordBytes (v : Word) : List Byte := [lowByte v, highByte v]

/-- A 24-bit value's three bytes, low byte first. -/
def addrBytes (a : Addr) : List Byte := [lowByte (offsetOf a), highByte (offsetOf a), bankOf a]

/-- The operand bytes of an immediate constant. -/
def Imm.bytes : Imm → List Byte
  | .byte k => [k]
  | .word k => wordBytes k

/-- The operand bytes of a memory mode. -/
def MemMode.bytes : MemMode → List Byte
  | .abs a | .abx a | .aby a => wordBytes a
  | .abl al | .alx al => addrBytes al
  | .dp d | .dpx d | .dpy d | .dpi d | .dxi d | .diy d | .dil d | .dly d | .sr d | .siy d => [d]

/-- The operand bytes of a control-transfer mode. -/
def Target.bytes : Target → List Byte
  | .absPb a | .abi a | .axi a | .ail a => wordBytes a
  | .ablPc t => addrBytes t

/-- The operand bytes of an operand. -/
def Operand.bytes : Operand → List Byte
  | .imp | .acc | .stkPush | .stkPull => []
  | .data (.immM k) | .data (.immX k) => k.bytes
  | .data (.mem m) => m.bytes
  | .imm8 k => [k]
  | .target t => t.bytes
  | .rel disp => [disp]
  | .rell disp | .stkRell disp => wordBytes disp
  | .stkAbs v => wordBytes v
  | .stkDpi d => [d]
  | .stkInt signature => [signature]
  | .blk dst src => [dst, src]
  | .wdm signature => signature.toList

/-- The bytes of an instruction, opcode first (R70). -/
def encode (i : Instr) : List Byte := i.opcode :: i.operand.bytes

/-! ## The host's check of the table -/

/-- The first four bytes of a number, bit 0 the least significant bit of the first byte. -/
def bytesOfNat (w : Nat) : List Byte :=
  [BitVec.ofNat 8 w, BitVec.ofNat 8 (w / 256), BitVec.ofNat 8 (w / 65536), BitVec.ofNat 8 (w / 16777216)]

/-- The widths and the reserved opcode's form right after reset: `E = 1`, so both widths are 8 (`70_reset_and_hazards.md`
R341, `10_state.md` R22), and `WDM_BEHAVIOUR = fatal`. -/
def DecodeContext.reset : DecodeContext where
  m8 := true
  x8 := true
  wdmSignature := false

/-- The instruction the decoder reads, with the widths of the reset state, from the bits of `w` below `nbits`, every bit
above them 0. -/
def decodeTableWord (nbits w : Nat) : Option Instr :=
  match decode DecodeContext.reset (bytesOfNat (w % 2 ^ nbits)) with
  | .ok (i, _) => some i
  | .error _ => none

end Sys2Proof
end

