-- ==== Sys2Proof/Machine/State.lean ====
section
/-! DEFINITION. The machine's state as plain data (`10_state.md` section 1): the registers, the flag vector, `E`, `run`,
the Bus's storage, the parameters it was built with, and the count of free values drawn. With it the reasons a step can
stop, and the state right after reset. -/

namespace Sys2Proof.Machine

open Sys2Proof

/-- The processor status `P`: eight independent flags (`10_state.md` R18), in the order of bits 0 to 7 of the status
byte (R19): Carry, Zero, IRQ-disable, Decimal, Index-size, Accumulator-size, Overflow, Negative. -/
structure Flags where
  c : Bool
  z : Bool
  i : Bool
  d : Bool
  x : Bool
  m : Bool
  v : Bool
  n : Bool
  deriving DecidableEq, Repr

/-- A byte store in canonical form: locations strictly rising, no byte equal to what an unlisted location reads as. -/
abbrev Memory := List Host.Cell

/-- The Bus's own state (`20_memory.md` R40): work RAM (R52), save RAM (R56), the cartridge image (R54, R55), and the state
of the device behind the `device` regions. The keys are locations inside each store; `locate` says which location an
address names. -/
structure Bus where
  wram : Memory
  sram : Memory
  rom : Memory
  device : DeviceState
  deriving DecidableEq, Repr

/-- The reasons of a fatal error (`60_exceptions.md` R320). -/
inductive FatalReason where
  /-- Raised by `WDM` under `WDM_BEHAVIOUR = fatal` (R273). Safe: the machine stops where the spec halts it. -/
  | decodeError (op : Byte)
  /-- Raised by any access to an address in no region, past the end of the image, or where the device says so (R321, R55).
  Safe. -/
  | unmappedAddress (addr : Addr)
  /-- Raised by any write to a ROM-mapped address, or where the device says so (R54, R321). Safe. -/
  | writeToReadOnly (addr : Addr)
  /-- Never raised: every cell of the table is defined (R81). -/
  | unimplemented (mnemonic mode : String)
  /-- Never raised by the core: it belongs to the construction of the Bus (R323). -/
  | malformedHeader
  deriving DecidableEq, Repr

/-- `run` (`10_state.md` R31). -/
inductive Run where
  | running
  | waiting
  | stopped
  | halted (reason : FatalReason)
  deriving DecidableEq, Repr

/-- How a step ends in a fault. -/
inductive Fault where
  /-- `raise Fatal(reason)` (`60_exceptions.md` R320): raised by the access or the opcode `reason` names. It carries what
  R322 lets a model rely on beside the reason: the Bus with the writes the step made before the failing access. Safe:
  nothing can be claimed of the registers of the failing step. -/
  | fatal (reason : FatalReason) (bus : Bus)
  deriving DecidableEq, Repr

/-- Why the model refuses a step. -/
inductive Refusal where
  /-- An instruction without a meaning yet. Raised by `exec`'s refused arms only. Safe. -/
  | notModelled (mnemonic : String)
  /-- `REG_WINDOW_POLICY = refuse` (`20_memory.md` R53, D4): raised by any access to a register window. Safe. -/
  | registerWindow (addr : Addr)
  /-- `DECIMAL_ARITH = refuse` (`42_arithmetic_logic.md` R160, D14): raised by `ADC` and `SBC` while `P.D = 1`. Safe. -/
  | decimalMode
  /-- `INTERRUPT_INPUTS = false` (`60_exceptions.md` R318): raised by the host operation `interrupt`, never by a step.
  Safe. -/
  | noInterruptInputs
  deriving DecidableEq, Repr

/-- The machine's state. -/
structure State where
  /-- `A`, the accumulator (R10). -/
  a : Word
  /-- `X` (R11). -/
  x : Word
  /-- `Y` (R11). -/
  y : Word
  /-- `S`, the stack pointer (R12). -/
  sp : Word
  /-- `D`, the direct page register (R13). -/
  d : Word
  /-- `DB`, the data bank (R14). -/
  db : Byte
  /-- `PB`, the program bank (R15). -/
  pb : Byte
  /-- `PC`, the program counter (R17). -/
  pc : Word
  /-- `P`, the status flags (R18). -/
  p : Flags
  /-- `E`, the emulation bit (R21). -/
  e : Bool
  /-- `run` (R31). -/
  run : Run
  /-- The Bus's own state (`20_memory.md` R40). -/
  bus : Bus
  /-- The parameters of `00_scope.md` R2, fixed for life (log entry 1). -/
  cfg : Config
  /-- The model's own field: how many free values have been drawn (log entry 3). -/
  draws : Nat
  deriving DecidableEq, Repr

/-- The flags right after reset (`70_reset_and_hazards.md` R341): `M`, `X`, `I` set, `D` clear. DESIGN CHOICE (log
entry 5): the unspecified `C`, `Z`, `V`, `N` are the draws of `Config.default`, all clear. -/
def Flags.reset : Flags where
  c := Config.default.draws.c
  z := Config.default.draws.z
  i := true
  d := false
  x := true
  m := true
  v := Config.default.draws.v
  n := Config.default.draws.n

/-- A Bus that lists nothing. DESIGN CHOICE (log entry 19): the device state is 0. -/
def Bus.empty : Bus where
  wram := []
  sram := []
  rom := []
  device := 0

/-- The machine right after reset (`70_reset_and_hazards.md` R341) with the parameters of `Config.default` and memory that
lists nothing. `pc` is the word at `VEC_RESET`, two unlisted bytes. DESIGN CHOICE (log entry 5): `a`, `x`, `y` and the low
byte of `sp`, which R341 leaves unspecified, are the draws of `Config.default`, all zero. -/
def State.reset : State where
  a := Config.default.draws.a
  x := Config.default.draws.x
  y := Config.default.draws.y
  sp := 0x0100
  d := 0x0000
  db := 0x00
  pb := Config.default.resetPb
  pc := 0x0000
  p := Flags.reset
  e := true
  run := .running
  bus := Bus.empty
  cfg := Config.default
  draws := 0

end Sys2Proof.Machine
end

