-- ==== Sys2Proof/Machine/Flags.lean ====
section
/-! DEFINITION. Widths, the status byte and every flag computation: `10_state.md` R19 to R23, R26;
`42_arithmetic_logic.md` R161, R170 to R182. A value of width 8 is a word whose high byte is zero. -/

namespace Sys2Proof.Machine

open Sys2Proof

/-! ## Widths (R22) -/

/-- The number of bits of a width. -/
def bitsOf : Width → Nat
  | .w8 => 8
  | .w16 => 16

/-- `v mod 2^w`. -/
def truncW : Width → Word → Word
  | .w8, v => zextByte (lowByte v)
  | .w16, v => v

/-- Bit `w - 1` of a value: its sign. -/
def topBit : Width → Word → Bool
  | .w8, v => v.getLsbD 7
  | .w16, v => v.getLsbD 15

/-- Bit `w - 2` of a value. -/
def secondBit : Width → Word → Bool
  | .w8, v => v.getLsbD 6
  | .w16, v => v.getLsbD 14

/-- `m8`: the accumulator and memory width is 8 (R22). -/
def State.m8 (s : State) : Bool := s.e || s.p.m

/-- `x8`: the index width is 8 (R22). -/
def State.x8 (s : State) : Bool := s.e || s.p.x

/-- `wA` (R22). -/
def State.wA (s : State) : Width := widthOf s.m8

/-- `wX` (R22). -/
def State.wX (s : State) : Width := widthOf s.x8

/-- `A_v` (R23). -/
def State.aV (s : State) : Word := truncW s.wA s.a

/-- `X_v` (R23). -/
def State.xV (s : State) : Word := truncW s.wX s.x

/-- `Y_v` (R23). -/
def State.yV (s : State) : Word := truncW s.wX s.y

/-- What decoding reads of the state (`30_encoding.md` R75, R79). -/
def State.decodeContext (s : State) : DecodeContext where
  m8 := s.m8
  x8 := s.x8
  wdmSignature := s.cfg.wdmBehaviour == .nop2

/-! ## The status byte (R19, R20) -/

/-- `PByte()` of a flag vector (R19). -/
def Flags.toByte (p : Flags) : Byte :=
  BitVec.ofNat 8 (p.n.toNat * 128 + p.v.toNat * 64 + p.m.toNat * 32 + p.x.toNat * 16 + p.d.toNat * 8 + p.i.toNat * 4 +
    p.z.toNat * 2 + p.c.toNat)

/-- The flag vector `SetP(b)` writes (R20). -/
def Flags.ofByte (b : Byte) : Flags where
  c := b.getLsbD 0
  z := b.getLsbD 1
  i := b.getLsbD 2
  d := b.getLsbD 3
  x := b.getLsbD 4
  m := b.getLsbD 5
  v := b.getLsbD 6
  n := b.getLsbD 7

/-- `SetP(b)` (R20). -/
def State.setP (s : State) (b : Byte) : State := { s with p := Flags.ofByte b }

/-! ## Flag writes -/

/-- `SetNZ(v, w)` (R26). -/
def State.setNZ (s : State) (v : Word) (w : Width) : State :=
  { s with p := { s.p with n := topBit w v, z := truncW w v == 0 } }

/-- `P.C <- b`. -/
def State.setC (s : State) (b : Bool) : State := { s with p := { s.p with c := b } }

/-- `P.Z <- b`. -/
def State.setZ (s : State) (b : Bool) : State := { s with p := { s.p with z := b } }

/-- `P.V <- b`. -/
def State.setV (s : State) (b : Bool) : State := { s with p := { s.p with v := b } }

/-- `P.N <- b`. -/
def State.setN (s : State) (b : Bool) : State := { s with p := { s.p with n := b } }

/-- `P.I <- b`. -/
def State.setI (s : State) (b : Bool) : State := { s with p := { s.p with i := b } }

/-- `P.D <- b`. -/
def State.setD (s : State) (b : Bool) : State := { s with p := { s.p with d := b } }

/-! ## The adder (`42_arithmetic_logic.md` R161) -/

/-- What the adder returns. -/
structure Sum where
  r : Word
  cy : Bool
  ov : Bool
  deriving DecidableEq, Repr

/-- `AddW(a, m, c, w)` (R161). -/
def addW (a m : Word) (c : Bool) (w : Width) : Sum :=
  let t := a.toNat + m.toNat + c.toNat
  let r := BitVec.ofNat 16 (t % 2 ^ bitsOf w)
  { r := r
    cy := decide (2 ^ bitsOf w ≤ t)
    ov := (topBit w a == topBit w m) && (topBit w r != topBit w a) }

/-- `~_w(m)` (`00_scope.md` R4). -/
def notW (w : Width) (m : Word) : Word := truncW w (~~~m)

/-! ## Increment, decrement, shift, rotate (R171, R172, R177 to R180)

Each takes the width, the carry and the operand, and answers the result and the new carry. -/

/-- `INC` (R171): the carry is unchanged. -/
def incW (w : Width) (c : Bool) (v : Word) : Word × Bool := (truncW w (v + 1), c)

/-- `DEC` (R172): the carry is unchanged. -/
def decW (w : Width) (c : Bool) (v : Word) : Word × Bool := (truncW w (v - 1), c)

/-- `ASL` (R177). -/
def aslW (w : Width) (_c : Bool) (v : Word) : Word × Bool := (truncW w (v <<< 1), topBit w v)

/-- `LSR` (R178). -/
def lsrW (_w : Width) (_c : Bool) (v : Word) : Word × Bool := (v >>> 1, v.getLsbD 0)

/-- `ROL` (R179). -/
def rolW (w : Width) (c : Bool) (v : Word) : Word × Bool :=
  (truncW w ((v <<< 1) ||| BitVec.ofNat 16 c.toNat), topBit w v)

/-- `ROR` (R180). -/
def rorW (w : Width) (c : Bool) (v : Word) : Word × Bool :=
  ((v >>> 1) ||| (BitVec.ofNat 16 c.toNat <<< (bitsOf w - 1)), v.getLsbD 0)

end Sys2Proof.Machine
end

