-- ==== Sys2Proof/Machine/Ops.lean ====
section
/-! DEFINITION. The named operations: byte storage, the Bus (`20_memory.md`), register writes at effective width
(`10_state.md` R24, R25), the stack primitives (`40_addressing_modes.md` R118 to R121), instruction fetch
(`30_encoding.md` R71, R72), taking an interrupt (`60_exceptions.md` R305) and returning from one (`47_system.md` R292). -/

namespace Sys2Proof.Machine

open Sys2Proof

/-- The answer of a step or of a meaning. -/
abbrev Answer := Host.Outcome State Fault Refusal

/-- How an operation ends before its instruction is complete. -/
inductive Stop where
  | fault (f : Fault)
  | refused (r : Refusal)
  deriving DecidableEq, Repr

/-- The answer of a stop. -/
def Stop.answer : Stop → Answer
  | .fault f => .fault f
  | .refused r => .refused r

/-- The answer of an instruction whose operations end so. -/
def finish : Except Stop State → Answer
  | .ok s => .next s
  | .error stop => stop.answer

/-! ## Byte storage -/

/-- What a location nothing has written reads as. DESIGN CHOICE (log entry 4), unsafe: the spec leaves the contents of
RAM at construction unspecified (`70_reset_and_hazards.md` R342). -/
def unlistedByte : Byte := 0x00

/-- The byte at a location. -/
def Memory.read : Memory → Nat → Byte
  | [], _ => unlistedByte
  | (k, v) :: m, i => if k = i then v else Memory.read m i

/-- A cell in front of a store, left out where it says what an unlisted location reads as anyway. -/
def Memory.cons (i : Nat) (b : Byte) (m : Memory) : Memory := if b = unlistedByte then m else (i, b) :: m

/-- The store with one byte written, in canonical form. -/
def Memory.write : Memory → Nat → Byte → Memory
  | [], i, b => Memory.cons i b []
  | (k, v) :: m, i, b =>
    if i < k then Memory.cons i b ((k, v) :: m)
    else if i = k then Memory.cons i b m
    else (k, v) :: Memory.write m i b

/-- Every location of a store is above `i`. -/
def Memory.above (i : Nat) : Memory → Bool
  | [] => true
  | (k, _) :: _ => decide (i < k)

/-- The canonical form: locations strictly rising, and no byte equal to what an unlisted location reads as. -/
def Memory.wf : Memory → Bool
  | [] => true
  | (k, v) :: m => decide (v ≠ unlistedByte) && Memory.above k m && Memory.wf m

/-- All three stores of the Bus are in canonical form. -/
def Bus.wf (b : Bus) : Bool := Memory.wf b.wram && Memory.wf b.sram && Memory.wf b.rom

/-! ## The map of the address space (`20_memory.md` R51 to R57) -/

/-- What an address names: a location of a store, a register window, the device, or nothing. -/
inductive Place where
  | workRam (i : Nat)
  | saveRam (i : Nat)
  | rom (i : Nat)
  | registerWindow
  | device
  | unmapped
  deriving DecidableEq, Repr

/-- Whether R55's formula covers an address: only the upper half of a bank is ROM in the Lo family, and the bank is not
below the origin subtracted from it. -/
def romCovers (family : MapFamily) (r : Region) (bank off : Nat) : Bool :=
  match family with
  | .lo | .fastLo => decide (r.bankOrigin ≤ bank) && decide (0x8000 ≤ off)
  | .hi | .fastHi => decide (r.bankOrigin ≤ bank)
  | .exLo | .exHi => true

/-- Whether a region holds an address (R51). -/
def regionCovers (family : MapFamily) (r : Region) (bank off : Nat) : Bool :=
  decide (r.bankLo ≤ bank) && decide (bank ≤ r.bankHi) && decide (r.offLo ≤ off) && decide (off ≤ r.offHi) &&
    (decide (r.kind ≠ .rom) || romCovers family r bank off)

/-- The location an address names inside a region, counted along its offsets and, by `stride`, its banks (R52). -/
def regionLocation (r : Region) (bank off : Nat) : Nat :=
  r.base + (bank - r.bankLo) * r.stride + (off - r.offLo)

/-- The ROM offset of an address (R55). The Ex families have no formula in the spec (N19): the region record gives it. -/
def romOffset (family : MapFamily) (r : Region) (bank off : Nat) : Nat :=
  match family with
  | .lo | .fastLo => (bank - r.bankOrigin) * 0x8000 + (off - 0x8000)
  | .hi | .fastHi => (bank - r.bankOrigin) * 0x10000 + off
  | .exLo | .exHi => regionLocation r bank off

/-- What an address names in a region that holds it; the file-header offset is applied to the image only (R57). -/
def regionPlace (cfg : Config) (r : Region) (bank off : Nat) : Place :=
  match r.kind with
  | .workRam => .workRam (regionLocation r bank off)
  | .saveRam => .saveRam (regionLocation r bank off)
  | .rom => .rom (romOffset cfg.mapFamily r bank off + cfg.headerOffset)
  | .registerWindow => .registerWindow
  | .device => .device

/-- The classification of an address (R51): the first region that holds it. DESIGN CHOICE (log entry 10). -/
def locate (cfg : Config) (addr : Addr) : Place :=
  let bank := (bankOf addr).toNat
  let off := (offsetOf addr).toNat
  match cfg.regionMap.find? (fun r => regionCovers cfg.mapFamily r bank off) with
  | some r => regionPlace cfg r bank off
  | none => .unmapped

/-! ## Byte access (`20_memory.md` R40; `60_exceptions.md` R321) -/

/-- A fatal error (`60_exceptions.md` R320), with the Bus as the step has left it (R322). -/
def fatal (reason : FatalReason) (s : State) : Stop := .fault (.fatal reason s.bus)

/-- `read_byte`. A stubbed register window answers a free value, a new one at each read (R53, D34). A read past the end
of the image is a read of an unmapped address (R55). A device answers as it does (R40). -/
def readByte (addr : Addr) (s : State) : Except Stop (Byte × State) :=
  match locate s.cfg addr with
  | .workRam i => .ok (Memory.read s.bus.wram i, s)
  | .saveRam i => .ok (Memory.read s.bus.sram i, s)
  | .rom i => if i < s.cfg.imageSize then .ok (Memory.read s.bus.rom i, s) else .error (fatal (.unmappedAddress addr) s)
  | .registerWindow =>
    match s.cfg.regWindowPolicy with
    | .refuse => .error (.refused (.registerWindow addr))
    | .stub => .ok (freeByte s.draws, { s with draws := s.draws + 1 })
  | .device =>
    match deviceRead s.bus.device addr with
    | some (b, d) => .ok (b, { s with bus := { s.bus with device := d } })
    | none => .error (fatal (.unmappedAddress addr) s)
  | .unmapped => .error (fatal (.unmappedAddress addr) s)

/-- `write_byte`. ROM is read-only (R54); a stubbed register window discards the byte (R53); a device does as it
does (R40). -/
def writeByte (addr : Addr) (v : Byte) (s : State) : Except Stop State :=
  match locate s.cfg addr with
  | .workRam i => .ok { s with bus := { s.bus with wram := Memory.write s.bus.wram i v } }
  | .saveRam i => .ok { s with bus := { s.bus with sram := Memory.write s.bus.sram i v } }
  | .rom _ => .error (fatal (.writeToReadOnly addr) s)
  | .registerWindow =>
    match s.cfg.regWindowPolicy with
    | .refuse => .error (.refused (.registerWindow addr))
    | .stub => .ok s
  | .device =>
    match deviceWrite s.bus.device addr v with
    | .ok d => .ok { s with bus := { s.bus with device := d } }
    | .error .unmapped => .error (fatal (.unmappedAddress addr) s)
    | .error .readOnly => .error (fatal (.writeToReadOnly addr) s)
  | .unmapped => .error (fatal (.unmappedAddress addr) s)

/-- The byte stored at an address, without an access: none where no byte is stored. -/
def peek (s : State) (addr : Addr) : Option Byte :=
  match locate s.cfg addr with
  | .workRam i => some (Memory.read s.bus.wram i)
  | .saveRam i => some (Memory.read s.bus.sram i)
  | .rom i => if i < s.cfg.imageSize then some (Memory.read s.bus.rom i) else none
  | .registerWindow => none
  | .device => none
  | .unmapped => none

/-- The host's change of a stored byte between steps (`20_memory.md` R61), of the image's too. -/
def poke (s : State) (addr : Addr) (v : Byte) : State :=
  match locate s.cfg addr with
  | .workRam i => { s with bus := { s.bus with wram := Memory.write s.bus.wram i v } }
  | .saveRam i => { s with bus := { s.bus with sram := Memory.write s.bus.sram i v } }
  | .rom i => { s with bus := { s.bus with rom := Memory.write s.bus.rom i v } }
  | .registerWindow => s
  | .device => s
  | .unmapped => s

/-- Bytes stored by the host at ascending offsets of one bank, wrapping inside it as the fetch does. -/
def placeBytes (s : State) (bank : Byte) (off : Word) : List Byte → State
  | [] => s
  | b :: bs => placeBytes (poke s (mkAddr bank off) b) bank (off + 1) bs

/-! ## Multi-byte access (`20_memory.md` R42 to R44) -/

/-- `MemRead(addr, 2)`. -/
def readWord (addr : Addr) (s : State) : Except Stop (Word × State) := do
  let (lo, s) ← readByte addr s
  let (hi, s) ← readByte (addr + 1) s
  pure (mkWord hi lo, s)

/-- `MemRead(addr, 3)`. -/
def readLong (addr : Addr) (s : State) : Except Stop (Addr × State) := do
  let (lo, s) ← readByte addr s
  let (hi, s) ← readByte (addr + 1) s
  let (bank, s) ← readByte (addr + 2) s
  pure (mkAddr bank (mkWord hi lo), s)

/-- `MemRead(addr, w/8)`. -/
def readW (addr : Addr) (w : Width) (s : State) : Except Stop (Word × State) :=
  match w with
  | .w8 => do
    let (v, s) ← readByte addr s
    pure (zextByte v, s)
  | .w16 => readWord addr s

/-- `MemWrite(addr, w/8, v)`. -/
def writeW (addr : Addr) (w : Width) (v : Word) (s : State) : Except Stop State :=
  match w with
  | .w8 => writeByte addr (lowByte v) s
  | .w16 => do
    let s ← writeByte addr (lowByte v) s
    writeByte (addr + 1) (highByte v) s

/-! ## Register writes (`10_state.md` R24, R25) -/

/-- A register's new value when `v` is written to it at a width: at width 8 the high byte is kept (R24). -/
def mergeW : Width → Word → Word → Word
  | .w8, old, v => mkWord (highByte old) (lowByte v)
  | .w16, _, v => v

/-- `WriteA(v)`. -/
def State.writeA (s : State) (v : Word) : State := { s with a := mergeW s.wA s.a v }

/-- `WriteX(v)`. -/
def State.writeX (s : State) (v : Word) : State := { s with x := mergeW s.wX s.x v }

/-- `WriteY(v)`. -/
def State.writeY (s : State) (v : Word) : State := { s with y := mergeW s.wX s.y v }

/-- `WriteS(v)` (R25): in Emulation mode the high byte is 0x01. -/
def State.writeS (s : State) (v : Word) : State :=
  { s with sp := if s.e then mkWord 0x01 (lowByte v) else v }

/-! ## The stack (`40_addressing_modes.md` R118 to R122) -/

/-- An address in bank 0. -/
def bank0 (off : Word) : Addr := mkAddr 0x00 off

/-- `Push8(v)` (R118). -/
def push8 (v : Byte) (s : State) : Except Stop State := do
  let s ← writeByte (bank0 s.sp) v s
  pure (s.writeS (s.sp - 1))

/-- `Pull8()` (R119). -/
def pull8 (s : State) : Except Stop (Byte × State) :=
  let s := s.writeS (s.sp + 1)
  readByte (bank0 s.sp) s

/-- `Push16(v)` (R120): the high byte first. -/
def push16 (v : Word) (s : State) : Except Stop State := do
  let s ← push8 (highByte v) s
  push8 (lowByte v) s

/-- `Pull16()` (R121): the low byte first. -/
def pull16 (s : State) : Except Stop (Word × State) := do
  let (lo, s) ← pull8 s
  let (hi, s) ← pull8 s
  pure (mkWord hi lo, s)

/-- A push at a width (R122). -/
def pushW (w : Width) (v : Word) (s : State) : Except Stop State :=
  match w with
  | .w8 => push8 (lowByte v) s
  | .w16 => push16 v s

/-- A pull at a width (R122). -/
def pullW (w : Width) (s : State) : Except Stop (Word × State) :=
  match w with
  | .w8 => do
    let (v, s) ← pull8 s
    pure (zextByte v, s)
  | .w16 => pull16 s

/-! ## Instruction fetch (`30_encoding.md` R71, R72) -/

/-- `Fetch8()`: `PC` wraps inside the bank. -/
def fetchByte (s : State) : Except Stop (Byte × State) := do
  let (b, s) ← readByte (mkAddr s.pb s.pc) s
  pure (b, { s with pc := s.pc + 1 })

/-- `n` fetches, in ascending order. -/
def fetchBytes : Nat → State → Except Stop (List Byte × State)
  | 0, s => .ok ([], s)
  | n + 1, s => do
    let (b, s) ← fetchByte s
    let (bs, s) ← fetchBytes n s
    pure (b :: bs, s)

/-- The opcode fetch, the fetch of its operand bytes, and the decoding of both: afterwards `PC` is the post-operand
counter. The last case is never reached: the bytes fetched are as many as the opcode's row has. -/
def fetchInstr (s : State) : Except Stop (Instr × State) := do
  let (op, s) ← fetchByte s
  let c := s.decodeContext
  let (bytes, s) ← fetchBytes ((rowOf op).length c) s
  match decode c (op :: bytes) with
  | .ok (i, _) => pure (i, s)
  | .error _ => .error (fatal (.decodeError op) s)

/-! ## Interrupts (`60_exceptions.md` R300 to R305) -/

/-- The interrupt kinds (R300). -/
inductive InterruptKind where
  | brk | cop | irq | nmi | abort
  deriving DecidableEq, Repr

/-- `Vec(kind, E)` (R303). -/
def vectorOf (v : Vectors) (kind : InterruptKind) (e : Bool) : Addr :=
  match kind, e with
  | .cop, false => v.nativeCop
  | .brk, false => v.nativeBrk
  | .abort, false => v.nativeAbort
  | .nmi, false => v.nativeNmi
  | .irq, false => v.nativeIrq
  | .cop, true => v.emuCop
  | .brk, true => v.emuIrqBrk
  | .abort, true => v.emuAbort
  | .nmi, true => v.emuNmi
  | .irq, true => v.emuIrqBrk

/-- The status byte an entry pushes (R305): in Emulation mode bit 4 is forced set for `BRK`, clear for a hardware
interrupt, and as stored for `COP`. -/
def pushedStatus (kind : InterruptKind) (e : Bool) (b : Byte) : Byte :=
  if e then
    match kind with
    | .brk => b ||| 0x10
    | .cop => b
    | .irq | .nmi | .abort => b &&& 0xEF
  else b

/-- The program bank is pushed in Native mode only (R305). -/
def pushBank (s : State) : Except Stop State := if s.e then .ok s else push8 s.pb s

/-- The register effects of an entry after the pushes: `P.I <- 1`, `P.D <- 0`, and `PB <- 0x00` in Native mode (R305). -/
def State.enterHandler (s : State) : State :=
  { s with p := { s.p with i := true, d := false }, pb := if s.e then s.pb else 0x00 }

/-- `InterruptEntry(kind, retpc)` (R305): the one entry sequence of `BRK`, `COP` and the host's `interrupt`. -/
def interruptEntry (kind : InterruptKind) (retpc : Word) (s : State) : Except Stop State := do
  let s ← pushBank s
  let s ← push16 retpc s
  let s ← push8 (pushedStatus kind s.e s.p.toByte) s
  let (target, s) ← readWord (vectorOf s.cfg.vectors kind s.e) s.enterHandler
  pure { s with pc := target }

/-- The return of `RTI` (`47_system.md` R292): the reverse of the entry. -/
def interruptReturn (s : State) : Except Stop State := do
  let (b, s) ← pull8 s
  let s := s.setP b
  let (t, s) ← pull16 s
  let s := { s with pc := t }
  if s.e then pure s
  else do
    let (bank, s) ← pull8 s
    pure { s with pb := bank }

end Sys2Proof.Machine
end

