-- ==== Sys2Proof/Machine/Operands.lean ====
section
/-! DEFINITION. The addressing-mode resolvers (`40_addressing_modes.md`): the effective address of every memory mode, the
control-transfer targets, and the resolver's load and store. The operand bytes are in the instruction; they were fetched,
and `PC` advanced over them, before (R93). -/

namespace Sys2Proof.Machine

open Sys2Proof

/-- `D_eff` (R100): in Emulation mode the low byte of `D` counts as zero. -/
def State.dEff (s : State) : Word := if s.e then mkWord (highByte s.d) 0x00 else s.d

/-- `DpAddr(d, idx)` (R100). -/
def dpAddr (s : State) (d : Byte) (idx : Word) : Addr :=
  if s.e && s.cfg.emuDpPageWrap then bank0 (s.dEff + zextByte (lowByte (zextByte d + idx)))
  else bank0 (s.dEff + zextByte d + idx)

/-- The address a stack-relative operand names (R115). -/
def srAddr (s : State) (d : Byte) : Addr := bank0 (s.sp + zextByte d)

/-- `EA_mode()` (R96 to R116). An index is added to the 24-bit base, with carry into the bank (R97). -/
def effAddr (m : MemMode) (s : State) : Except Stop (Addr × State) :=
  match m with
  | .abs a => .ok (mkAddr s.db a, s)
  | .abx a => .ok (mkAddr s.db a + zextWord s.xV, s)
  | .aby a => .ok (mkAddr s.db a + zextWord s.yV, s)
  | .abl al => .ok (al, s)
  | .alx al => .ok (al + zextWord s.xV, s)
  | .dp d => .ok (dpAddr s d 0, s)
  | .dpx d => .ok (dpAddr s d s.xV, s)
  | .dpy d => .ok (dpAddr s d s.yV, s)
  | .dpi d => do
    let (p, s) ← readWord (dpAddr s d 0) s
    pure (mkAddr s.db p, s)
  | .dxi d => do
    let (p, s) ← readWord (dpAddr s d s.xV) s
    pure (mkAddr s.db p, s)
  | .diy d => do
    let (p, s) ← readWord (dpAddr s d 0) s
    pure (mkAddr s.db p + zextWord s.yV, s)
  | .dil d => readLong (dpAddr s d 0) s
  | .dly d => do
    let (p, s) ← readLong (dpAddr s d 0) s
    pure (p + zextWord s.yV, s)
  | .sr d => .ok (srAddr s d, s)
  | .siy d => do
    let (p, s) ← readWord (srAddr s d) s
    pure (mkAddr s.db p + zextWord s.yV, s)

/-- `Load(mode, w)` (R91). The decoder makes an immediate constant of the width in force, so that truncating one changes
nothing in a step (log entry 14). -/
def load (o : DataOperand) (w : Width) (s : State) : Except Stop (Word × State) :=
  match o with
  | .immM k => .ok (truncW w k.value, s)
  | .immX k => .ok (truncW w k.value, s)
  | .mem m => do
    let (ea, s) ← effAddr m s
    readW ea w s

/-- `Store(mode, w, v)` (R92). -/
def store (m : MemMode) (w : Width) (v : Word) (s : State) : Except Stop State := do
  let (ea, s) ← effAddr m s
  writeW ea w v s

/-- Where a control transfer goes, as `bank:offset` (R96, R110, R112 to R114). The modes that stay in the program bank
answer an address in bank `PB`. -/
def jumpTarget (t : Target) (s : State) : Except Stop (Addr × State) :=
  match t with
  | .absPb a => .ok (mkAddr s.pb a, s)
  | .ablPc t => .ok (t, s)
  | .abi a => do
    let (p, s) ← readWord (bank0 a) s
    pure (mkAddr s.pb p, s)
  | .axi a => do
    let (p, s) ← readWord (mkAddr s.pb (a + s.xV)) s
    pure (mkAddr s.pb p, s)
  | .ail a => readLong (bank0 a) s

end Sys2Proof.Machine
end

