-- ==== Sys2Proof/Machine/Arithmetic.lean ====
section
/-! DEFINITION. Add, subtract, compare (`42_arithmetic_logic.md` R162 to R166). -/

namespace Sys2Proof.Machine

open Sys2Proof

/-- The refusal of `ADC` and `SBC` in decimal mode under `DECIMAL_ARITH = refuse` (R160, R183); the default is binary. -/
def checkDecimal (s : State) : Except Stop Unit :=
  if s.cfg.decimalArith = .refuse ∧ s.p.d = true then .error (.refused .decimalMode) else .ok ()

/-- The common end of `ADC` and `SBC`: `P.C`, `P.V`, `SetNZ`, `WriteA` from the adder's answer (R162, R163). -/
def State.writeSum (s : State) (q : Sum) (w : Width) : State := (((s.setC q.cy).setV q.ov).setNZ q.r w).writeA q.r

/-- The common end of the compares: `P.C` and `SetNZ` of the difference, the overflow discarded (R164 to R166). -/
def State.writeCompare (s : State) (reg m : Word) (w : Width) : State :=
  let q := addW reg (notW w m) true w
  (s.setC q.cy).setNZ q.r w

/-- `ADC` (R162). -/
def opAdc (o : DataOperand) (s : State) : Answer := finish do
  let w := s.wA
  checkDecimal s
  let (m, s) ← load o w s
  pure (s.writeSum (addW s.aV m s.p.c w) w)

/-- `SBC` (R163): the `wA`-bit complement of the operand is added. -/
def opSbc (o : DataOperand) (s : State) : Answer := finish do
  let w := s.wA
  checkDecimal s
  let (m, s) ← load o w s
  pure (s.writeSum (addW s.aV (notW w m) s.p.c w) w)

/-- `CMP` (R164). -/
def opCmp (o : DataOperand) (s : State) : Answer := finish do
  let w := s.wA
  let (m, s) ← load o w s
  pure (s.writeCompare s.aV m w)

/-- `CPX` (R165). -/
def opCpx (o : DataOperand) (s : State) : Answer := finish do
  let w := s.wX
  let (m, s) ← load o w s
  pure (s.writeCompare s.xV m w)

/-- `CPY` (R166). -/
def opCpy (o : DataOperand) (s : State) : Answer := finish do
  let w := s.wX
  let (m, s) ← load o w s
  pure (s.writeCompare s.yV m w)

/-- `ADC` `dxi` (R162). -/
def execAdcDxi (d : Byte) (s : State) : Answer := opAdc (.mem (.dxi d)) s

/-- `ADC` `sr` (R162). -/
def execAdcSr (d : Byte) (s : State) : Answer := opAdc (.mem (.sr d)) s

/-- `ADC` `dp` (R162). -/
def execAdcDp (d : Byte) (s : State) : Answer := opAdc (.mem (.dp d)) s

/-- `ADC` `dil` (R162). -/
def execAdcDil (d : Byte) (s : State) : Answer := opAdc (.mem (.dil d)) s

/-- `ADC` `imm_m` (R162). -/
def execAdcImmM (k : Imm) (s : State) : Answer := opAdc (.immM k) s

/-- `ADC` `abs` (R162). -/
def execAdcAbs (a : Word) (s : State) : Answer := opAdc (.mem (.abs a)) s

/-- `ADC` `abl` (R162). -/
def execAdcAbl (al : Addr) (s : State) : Answer := opAdc (.mem (.abl al)) s

/-- `ADC` `diy` (R162). -/
def execAdcDiy (d : Byte) (s : State) : Answer := opAdc (.mem (.diy d)) s

/-- `ADC` `dpi` (R162). -/
def execAdcDpi (d : Byte) (s : State) : Answer := opAdc (.mem (.dpi d)) s

/-- `ADC` `siy` (R162). -/
def execAdcSiy (d : Byte) (s : State) : Answer := opAdc (.mem (.siy d)) s

/-- `ADC` `dpx` (R162). -/
def execAdcDpx (d : Byte) (s : State) : Answer := opAdc (.mem (.dpx d)) s

/-- `ADC` `dly` (R162). -/
def execAdcDly (d : Byte) (s : State) : Answer := opAdc (.mem (.dly d)) s

/-- `ADC` `aby` (R162). -/
def execAdcAby (a : Word) (s : State) : Answer := opAdc (.mem (.aby a)) s

/-- `ADC` `abx` (R162). -/
def execAdcAbx (a : Word) (s : State) : Answer := opAdc (.mem (.abx a)) s

/-- `ADC` `alx` (R162). -/
def execAdcAlx (al : Addr) (s : State) : Answer := opAdc (.mem (.alx al)) s

/-- `SBC` `dxi` (R163). -/
def execSbcDxi (d : Byte) (s : State) : Answer := opSbc (.mem (.dxi d)) s

/-- `SBC` `sr` (R163). -/
def execSbcSr (d : Byte) (s : State) : Answer := opSbc (.mem (.sr d)) s

/-- `SBC` `dp` (R163). -/
def execSbcDp (d : Byte) (s : State) : Answer := opSbc (.mem (.dp d)) s

/-- `SBC` `dil` (R163). -/
def execSbcDil (d : Byte) (s : State) : Answer := opSbc (.mem (.dil d)) s

/-- `SBC` `imm_m` (R163). -/
def execSbcImmM (k : Imm) (s : State) : Answer := opSbc (.immM k) s

/-- `SBC` `abs` (R163). -/
def execSbcAbs (a : Word) (s : State) : Answer := opSbc (.mem (.abs a)) s

/-- `SBC` `abl` (R163). -/
def execSbcAbl (al : Addr) (s : State) : Answer := opSbc (.mem (.abl al)) s

/-- `SBC` `diy` (R163). -/
def execSbcDiy (d : Byte) (s : State) : Answer := opSbc (.mem (.diy d)) s

/-- `SBC` `dpi` (R163). -/
def execSbcDpi (d : Byte) (s : State) : Answer := opSbc (.mem (.dpi d)) s

/-- `SBC` `siy` (R163). -/
def execSbcSiy (d : Byte) (s : State) : Answer := opSbc (.mem (.siy d)) s

/-- `SBC` `dpx` (R163). -/
def execSbcDpx (d : Byte) (s : State) : Answer := opSbc (.mem (.dpx d)) s

/-- `SBC` `dly` (R163). -/
def execSbcDly (d : Byte) (s : State) : Answer := opSbc (.mem (.dly d)) s

/-- `SBC` `aby` (R163). -/
def execSbcAby (a : Word) (s : State) : Answer := opSbc (.mem (.aby a)) s

/-- `SBC` `abx` (R163). -/
def execSbcAbx (a : Word) (s : State) : Answer := opSbc (.mem (.abx a)) s

/-- `SBC` `alx` (R163). -/
def execSbcAlx (al : Addr) (s : State) : Answer := opSbc (.mem (.alx al)) s

/-- `CMP` `dxi` (R164). -/
def execCmpDxi (d : Byte) (s : State) : Answer := opCmp (.mem (.dxi d)) s

/-- `CMP` `sr` (R164). -/
def execCmpSr (d : Byte) (s : State) : Answer := opCmp (.mem (.sr d)) s

/-- `CMP` `dp` (R164). -/
def execCmpDp (d : Byte) (s : State) : Answer := opCmp (.mem (.dp d)) s

/-- `CMP` `dil` (R164). -/
def execCmpDil (d : Byte) (s : State) : Answer := opCmp (.mem (.dil d)) s

/-- `CMP` `imm_m` (R164). -/
def execCmpImmM (k : Imm) (s : State) : Answer := opCmp (.immM k) s

/-- `CMP` `abs` (R164). -/
def execCmpAbs (a : Word) (s : State) : Answer := opCmp (.mem (.abs a)) s

/-- `CMP` `abl` (R164). -/
def execCmpAbl (al : Addr) (s : State) : Answer := opCmp (.mem (.abl al)) s

/-- `CMP` `diy` (R164). -/
def execCmpDiy (d : Byte) (s : State) : Answer := opCmp (.mem (.diy d)) s

/-- `CMP` `dpi` (R164). -/
def execCmpDpi (d : Byte) (s : State) : Answer := opCmp (.mem (.dpi d)) s

/-- `CMP` `siy` (R164). -/
def execCmpSiy (d : Byte) (s : State) : Answer := opCmp (.mem (.siy d)) s

/-- `CMP` `dpx` (R164). -/
def execCmpDpx (d : Byte) (s : State) : Answer := opCmp (.mem (.dpx d)) s

/-- `CMP` `dly` (R164). -/
def execCmpDly (d : Byte) (s : State) : Answer := opCmp (.mem (.dly d)) s

/-- `CMP` `aby` (R164). -/
def execCmpAby (a : Word) (s : State) : Answer := opCmp (.mem (.aby a)) s

/-- `CMP` `abx` (R164). -/
def execCmpAbx (a : Word) (s : State) : Answer := opCmp (.mem (.abx a)) s

/-- `CMP` `alx` (R164). -/
def execCmpAlx (al : Addr) (s : State) : Answer := opCmp (.mem (.alx al)) s

/-- `CPX` `imm_x` (R165). -/
def execCpxImmX (k : Imm) (s : State) : Answer := opCpx (.immX k) s

/-- `CPX` `dp` (R165). -/
def execCpxDp (d : Byte) (s : State) : Answer := opCpx (.mem (.dp d)) s

/-- `CPX` `abs` (R165). -/
def execCpxAbs (a : Word) (s : State) : Answer := opCpx (.mem (.abs a)) s

/-- `CPY` `imm_x` (R166). -/
def execCpyImmX (k : Imm) (s : State) : Answer := opCpy (.immX k) s

/-- `CPY` `dp` (R166). -/
def execCpyDp (d : Byte) (s : State) : Answer := opCpy (.mem (.dp d)) s

/-- `CPY` `abs` (R166). -/
def execCpyAbs (a : Word) (s : State) : Answer := opCpy (.mem (.abs a)) s

end Sys2Proof.Machine
end

