-- ==== Sys2Proof/Machine/BlockMove.lean ====
section
/-! DEFINITION. Block move, one byte per step (`46_block_move.md` R280 to R282). -/

namespace Sys2Proof.Machine

open Sys2Proof

/-- One byte of a block move (R280, R281): the byte at `src :: X_v` goes to `dst :: Y_v`, both indices move by `delta` at
width `wX`, the 16-bit count in `A` goes down, `DB` becomes `dst`, and unless the count has run out `PC` returns to the
instruction, three bytes back. -/
def blockMove (delta : Word) (dst src : Byte) (s : State) : Answer := finish do
  let (b, s) ← readByte (mkAddr src s.xV) s
  let s ← writeByte (mkAddr dst s.yV) b s
  let s := s.writeX (s.xV + delta)
  let s := s.writeY (s.yV + delta)
  let s := { s with a := s.a - 1, db := dst }
  pure (if s.a = 0xFFFF then s else { s with pc := s.pc - 3 })

/-- `MVN` (R280): ascending. -/
def execMvn (dst src : Byte) (s : State) : Answer := blockMove 1 dst src s

/-- `MVP` (R281): descending. -/
def execMvp (dst src : Byte) (s : State) : Answer := blockMove (-1) dst src s

end Sys2Proof.Machine
end

