-- ==== Sys2Proof/Machine/Control.lean ====
section
/-! DEFINITION. Branches, jumps, calls and returns (`43_control_transfer.md` R200 to R216). -/

namespace Sys2Proof.Machine

open Sys2Proof

/-- The branch handler (R200): the sign-extended displacement is added to the post-operand counter. -/
def branch (cond : Bool) (disp : Byte) (s : State) : Answer :=
  .next (if cond then { s with pc := s.pc + sextByte disp } else s)

/-- `JMP` (R211): `PB` is unchanged. -/
def opJmp (t : Target) (s : State) : Answer := finish do
  let (ta, s) ← jumpTarget t s
  pure { s with pc := offsetOf ta }

/-- `JML` (R212). -/
def opJml (t : Target) (s : State) : Answer := finish do
  let (ta, s) ← jumpTarget t s
  pure { s with pc := offsetOf ta, pb := bankOf ta }

/-- `JSR` (R213): the address of the last operand byte is pushed, then the pointer is read, if there is one. -/
def opJsr (t : Target) (s : State) : Answer := finish do
  let s ← push16 (s.pc - 1) s
  let (ta, s) ← jumpTarget t s
  pure { s with pc := offsetOf ta }

/-- `JSL` (R214): the program bank is pushed first. -/
def opJsl (t : Target) (s : State) : Answer := finish do
  let s ← push8 s.pb s
  let s ← push16 (s.pc - 1) s
  let (ta, s) ← jumpTarget t s
  pure { s with pc := offsetOf ta, pb := bankOf ta }

/-- `BPL` `rel` (R201). -/
def execBpl (disp : Byte) (s : State) : Answer := branch (!s.p.n) disp s

/-- `BMI` `rel` (R202). -/
def execBmi (disp : Byte) (s : State) : Answer := branch s.p.n disp s

/-- `BVC` `rel` (R203). -/
def execBvc (disp : Byte) (s : State) : Answer := branch (!s.p.v) disp s

/-- `BVS` `rel` (R204). -/
def execBvs (disp : Byte) (s : State) : Answer := branch s.p.v disp s

/-- `BCC` `rel` (R205). -/
def execBcc (disp : Byte) (s : State) : Answer := branch (!s.p.c) disp s

/-- `BCS` `rel` (R206). -/
def execBcs (disp : Byte) (s : State) : Answer := branch s.p.c disp s

/-- `BNE` `rel` (R207). -/
def execBne (disp : Byte) (s : State) : Answer := branch (!s.p.z) disp s

/-- `BEQ` `rel` (R208). -/
def execBeq (disp : Byte) (s : State) : Answer := branch s.p.z disp s

/-- `BRA` `rel` (R209). -/
def execBra (disp : Byte) (s : State) : Answer := branch true disp s

/-- `BRL` (R210). -/
def execBrl (disp : Word) (s : State) : Answer :=
  .next { s with pc := s.pc + disp }

/-- `JMP` `abs_pb` (R211). -/
def execJmpAbsPb (a : Word) (s : State) : Answer := opJmp (.absPb a) s

/-- `JMP` `abi` (R211). -/
def execJmpAbi (a : Word) (s : State) : Answer := opJmp (.abi a) s

/-- `JMP` `axi` (R211). -/
def execJmpAxi (a : Word) (s : State) : Answer := opJmp (.axi a) s

/-- `JML` `abl_pc` (R212). -/
def execJmlAblPc (t : Addr) (s : State) : Answer := opJml (.ablPc t) s

/-- `JML` `ail` (R212). -/
def execJmlAil (a : Word) (s : State) : Answer := opJml (.ail a) s

/-- `JSR` `abs_pb` (R213). -/
def execJsrAbsPb (a : Word) (s : State) : Answer := opJsr (.absPb a) s

/-- `JSR` `axi` (R213). -/
def execJsrAxi (a : Word) (s : State) : Answer := opJsr (.axi a) s

/-- `JSL` `abl_pc` (R214). -/
def execJsl (t : Addr) (s : State) : Answer := opJsl (.ablPc t) s

/-- `RTS` (R215). -/
def execRts (s : State) : Answer := finish do
  let (t, s) ← pull16 s
  pure { s with pc := t + 1 }

/-- `RTL` (R216): the bank is pulled last, and the `+ 1` does not carry into it. -/
def execRtl (s : State) : Answer := finish do
  let (t, s) ← pull16 s
  let s := { s with pc := t + 1 }
  let (bank, s) ← pull8 s
  pure { s with pb := bank }

end Sys2Proof.Machine
end

