-- ==== Sys2Proof/Machine/Loads.lean ====
section
/-! DEFINITION. Loads and stores (`41_load_store_transfer.md` R131 to R137). -/

namespace Sys2Proof.Machine

open Sys2Proof

/-- `LDA` (R131). -/
def opLda (o : DataOperand) (s : State) : Answer := finish do
  let w := s.wA
  let (v, s) ← load o w s
  pure ((s.writeA v).setNZ v w)

/-- `LDX` (R132). -/
def opLdx (o : DataOperand) (s : State) : Answer := finish do
  let w := s.wX
  let (v, s) ← load o w s
  pure ((s.writeX v).setNZ v w)

/-- `LDY` (R133). -/
def opLdy (o : DataOperand) (s : State) : Answer := finish do
  let w := s.wX
  let (v, s) ← load o w s
  pure ((s.writeY v).setNZ v w)

/-- `STA` (R134). -/
def opSta (m : MemMode) (s : State) : Answer := finish (store m s.wA s.aV s)

/-- `STX` (R135). -/
def opStx (m : MemMode) (s : State) : Answer := finish (store m s.wX s.xV s)

/-- `STY` (R136). -/
def opSty (m : MemMode) (s : State) : Answer := finish (store m s.wX s.yV s)

/-- `STZ` (R137): zero at the accumulator width. -/
def opStz (m : MemMode) (s : State) : Answer := finish (store m s.wA 0 s)

/-- `LDA` `dxi` (R131). -/
def execLdaDxi (d : Byte) (s : State) : Answer := opLda (.mem (.dxi d)) s

/-- `LDA` `sr` (R131). -/
def execLdaSr (d : Byte) (s : State) : Answer := opLda (.mem (.sr d)) s

/-- `LDA` `dp` (R131). -/
def execLdaDp (d : Byte) (s : State) : Answer := opLda (.mem (.dp d)) s

/-- `LDA` `dil` (R131). -/
def execLdaDil (d : Byte) (s : State) : Answer := opLda (.mem (.dil d)) s

/-- `LDA` `imm_m` (R131). -/
def execLdaImmM (k : Imm) (s : State) : Answer := opLda (.immM k) s

/-- `LDA` `abs` (R131). -/
def execLdaAbs (a : Word) (s : State) : Answer := opLda (.mem (.abs a)) s

/-- `LDA` `abl` (R131). -/
def execLdaAbl (al : Addr) (s : State) : Answer := opLda (.mem (.abl al)) s

/-- `LDA` `diy` (R131). -/
def execLdaDiy (d : Byte) (s : State) : Answer := opLda (.mem (.diy d)) s

/-- `LDA` `dpi` (R131). -/
def execLdaDpi (d : Byte) (s : State) : Answer := opLda (.mem (.dpi d)) s

/-- `LDA` `siy` (R131). -/
def execLdaSiy (d : Byte) (s : State) : Answer := opLda (.mem (.siy d)) s

/-- `LDA` `dpx` (R131). -/
def execLdaDpx (d : Byte) (s : State) : Answer := opLda (.mem (.dpx d)) s

/-- `LDA` `dly` (R131). -/
def execLdaDly (d : Byte) (s : State) : Answer := opLda (.mem (.dly d)) s

/-- `LDA` `aby` (R131). -/
def execLdaAby (a : Word) (s : State) : Answer := opLda (.mem (.aby a)) s

/-- `LDA` `abx` (R131). -/
def execLdaAbx (a : Word) (s : State) : Answer := opLda (.mem (.abx a)) s

/-- `LDA` `alx` (R131). -/
def execLdaAlx (al : Addr) (s : State) : Answer := opLda (.mem (.alx al)) s

/-- `LDX` `imm_x` (R132). -/
def execLdxImmX (k : Imm) (s : State) : Answer := opLdx (.immX k) s

/-- `LDX` `dp` (R132). -/
def execLdxDp (d : Byte) (s : State) : Answer := opLdx (.mem (.dp d)) s

/-- `LDX` `abs` (R132). -/
def execLdxAbs (a : Word) (s : State) : Answer := opLdx (.mem (.abs a)) s

/-- `LDX` `dpy` (R132). -/
def execLdxDpy (d : Byte) (s : State) : Answer := opLdx (.mem (.dpy d)) s

/-- `LDX` `aby` (R132). -/
def execLdxAby (a : Word) (s : State) : Answer := opLdx (.mem (.aby a)) s

/-- `LDY` `imm_x` (R133). -/
def execLdyImmX (k : Imm) (s : State) : Answer := opLdy (.immX k) s

/-- `LDY` `dp` (R133). -/
def execLdyDp (d : Byte) (s : State) : Answer := opLdy (.mem (.dp d)) s

/-- `LDY` `abs` (R133). -/
def execLdyAbs (a : Word) (s : State) : Answer := opLdy (.mem (.abs a)) s

/-- `LDY` `dpx` (R133). -/
def execLdyDpx (d : Byte) (s : State) : Answer := opLdy (.mem (.dpx d)) s

/-- `LDY` `abx` (R133). -/
def execLdyAbx (a : Word) (s : State) : Answer := opLdy (.mem (.abx a)) s

/-- `STA` `dxi` (R134). -/
def execStaDxi (d : Byte) (s : State) : Answer := opSta (.dxi d) s

/-- `STA` `sr` (R134). -/
def execStaSr (d : Byte) (s : State) : Answer := opSta (.sr d) s

/-- `STA` `dp` (R134). -/
def execStaDp (d : Byte) (s : State) : Answer := opSta (.dp d) s

/-- `STA` `dil` (R134). -/
def execStaDil (d : Byte) (s : State) : Answer := opSta (.dil d) s

/-- `STA` `abs` (R134). -/
def execStaAbs (a : Word) (s : State) : Answer := opSta (.abs a) s

/-- `STA` `abl` (R134). -/
def execStaAbl (al : Addr) (s : State) : Answer := opSta (.abl al) s

/-- `STA` `diy` (R134). -/
def execStaDiy (d : Byte) (s : State) : Answer := opSta (.diy d) s

/-- `STA` `dpi` (R134). -/
def execStaDpi (d : Byte) (s : State) : Answer := opSta (.dpi d) s

/-- `STA` `siy` (R134). -/
def execStaSiy (d : Byte) (s : State) : Answer := opSta (.siy d) s

/-- `STA` `dpx` (R134). -/
def execStaDpx (d : Byte) (s : State) : Answer := opSta (.dpx d) s

/-- `STA` `dly` (R134). -/
def execStaDly (d : Byte) (s : State) : Answer := opSta (.dly d) s

/-- `STA` `aby` (R134). -/
def execStaAby (a : Word) (s : State) : Answer := opSta (.aby a) s

/-- `STA` `abx` (R134). -/
def execStaAbx (a : Word) (s : State) : Answer := opSta (.abx a) s

/-- `STA` `alx` (R134). -/
def execStaAlx (al : Addr) (s : State) : Answer := opSta (.alx al) s

/-- `STX` `dp` (R135). -/
def execStxDp (d : Byte) (s : State) : Answer := opStx (.dp d) s

/-- `STX` `abs` (R135). -/
def execStxAbs (a : Word) (s : State) : Answer := opStx (.abs a) s

/-- `STX` `dpy` (R135). -/
def execStxDpy (d : Byte) (s : State) : Answer := opStx (.dpy d) s

/-- `STY` `dp` (R136). -/
def execStyDp (d : Byte) (s : State) : Answer := opSty (.dp d) s

/-- `STY` `abs` (R136). -/
def execStyAbs (a : Word) (s : State) : Answer := opSty (.abs a) s

/-- `STY` `dpx` (R136). -/
def execStyDpx (d : Byte) (s : State) : Answer := opSty (.dpx d) s

/-- `STZ` `dp` (R137). -/
def execStzDp (d : Byte) (s : State) : Answer := opStz (.dp d) s

/-- `STZ` `dpx` (R137). -/
def execStzDpx (d : Byte) (s : State) : Answer := opStz (.dpx d) s

/-- `STZ` `abs` (R137). -/
def execStzAbs (a : Word) (s : State) : Answer := opStz (.abs a) s

/-- `STZ` `abx` (R137). -/
def execStzAbx (a : Word) (s : State) : Answer := opStz (.abx a) s

end Sys2Proof.Machine
end

