-- ==== Sys2Proof/Machine/Logic.lean ====
section
/-! DEFINITION. Logic, bit tests, test-and-set and test-and-reset (`42_arithmetic_logic.md` R167 to R170, R181, R182). -/

namespace Sys2Proof.Machine

open Sys2Proof

/-- `AND` (R167). -/
def opAnd (o : DataOperand) (s : State) : Answer := finish do
  let w := s.wA
  let (m, s) ← load o w s
  let r := s.aV &&& m
  pure ((s.writeA r).setNZ r w)

/-- `ORA` (R168). -/
def opOra (o : DataOperand) (s : State) : Answer := finish do
  let w := s.wA
  let (m, s) ← load o w s
  let r := s.aV ||| m
  pure ((s.writeA r).setNZ r w)

/-- `EOR` (R169). -/
def opEor (o : DataOperand) (s : State) : Answer := finish do
  let w := s.wA
  let (m, s) ← load o w s
  let r := s.aV ^^^ m
  pure ((s.writeA r).setNZ r w)

/-- `BIT` (R170): `P.Z` from the and with the accumulator; the memory forms also take `P.N` and `P.V` from the two top
bits of the operand. -/
def opBit (o : DataOperand) (s : State) : Answer := finish do
  let w := s.wA
  let (m, s) ← load o w s
  let s := s.setZ (s.aV &&& m == 0)
  match o with
  | .immM _ => pure s
  | .immX _ => pure s
  | .mem _ => pure ((s.setN (topBit w m)).setV (secondBit w m))

/-- The common form of `TSB` and `TRB`: one effective address, a read, `P.Z` from the and with the old value, a write of
`f` of the old value and the accumulator (R181, R182, R185). -/
def testModify (f : Word → Word → Word) (m : MemMode) (s : State) : Answer := finish do
  let w := s.wA
  let (ea, s) ← effAddr m s
  let (v, s) ← readW ea w s
  let z := s.aV &&& v == 0
  let s ← writeW ea w (f v s.aV) s
  pure (s.setZ z)

/-- `TSB` (R181). -/
def opTsb (m : MemMode) (s : State) : Answer := testModify (fun v a => v ||| a) m s

/-- `TRB` (R182). -/
def opTrb (m : MemMode) (s : State) : Answer := testModify (fun v a => v &&& notW s.wA a) m s

/-- `AND` `dxi` (R167). -/
def execAndDxi (d : Byte) (s : State) : Answer := opAnd (.mem (.dxi d)) s

/-- `AND` `sr` (R167). -/
def execAndSr (d : Byte) (s : State) : Answer := opAnd (.mem (.sr d)) s

/-- `AND` `dp` (R167). -/
def execAndDp (d : Byte) (s : State) : Answer := opAnd (.mem (.dp d)) s

/-- `AND` `dil` (R167). -/
def execAndDil (d : Byte) (s : State) : Answer := opAnd (.mem (.dil d)) s

/-- `AND` `imm_m` (R167). -/
def execAndImmM (k : Imm) (s : State) : Answer := opAnd (.immM k) s

/-- `AND` `abs` (R167). -/
def execAndAbs (a : Word) (s : State) : Answer := opAnd (.mem (.abs a)) s

/-- `AND` `abl` (R167). -/
def execAndAbl (al : Addr) (s : State) : Answer := opAnd (.mem (.abl al)) s

/-- `AND` `diy` (R167). -/
def execAndDiy (d : Byte) (s : State) : Answer := opAnd (.mem (.diy d)) s

/-- `AND` `dpi` (R167). -/
def execAndDpi (d : Byte) (s : State) : Answer := opAnd (.mem (.dpi d)) s

/-- `AND` `siy` (R167). -/
def execAndSiy (d : Byte) (s : State) : Answer := opAnd (.mem (.siy d)) s

/-- `AND` `dpx` (R167). -/
def execAndDpx (d : Byte) (s : State) : Answer := opAnd (.mem (.dpx d)) s

/-- `AND` `dly` (R167). -/
def execAndDly (d : Byte) (s : State) : Answer := opAnd (.mem (.dly d)) s

/-- `AND` `aby` (R167). -/
def execAndAby (a : Word) (s : State) : Answer := opAnd (.mem (.aby a)) s

/-- `AND` `abx` (R167). -/
def execAndAbx (a : Word) (s : State) : Answer := opAnd (.mem (.abx a)) s

/-- `AND` `alx` (R167). -/
def execAndAlx (al : Addr) (s : State) : Answer := opAnd (.mem (.alx al)) s

/-- `ORA` `dxi` (R168). -/
def execOraDxi (d : Byte) (s : State) : Answer := opOra (.mem (.dxi d)) s

/-- `ORA` `sr` (R168). -/
def execOraSr (d : Byte) (s : State) : Answer := opOra (.mem (.sr d)) s

/-- `ORA` `dp` (R168). -/
def execOraDp (d : Byte) (s : State) : Answer := opOra (.mem (.dp d)) s

/-- `ORA` `dil` (R168). -/
def execOraDil (d : Byte) (s : State) : Answer := opOra (.mem (.dil d)) s

/-- `ORA` `imm_m` (R168). -/
def execOraImmM (k : Imm) (s : State) : Answer := opOra (.immM k) s

/-- `ORA` `abs` (R168). -/
def execOraAbs (a : Word) (s : State) : Answer := opOra (.mem (.abs a)) s

/-- `ORA` `abl` (R168). -/
def execOraAbl (al : Addr) (s : State) : Answer := opOra (.mem (.abl al)) s

/-- `ORA` `diy` (R168). -/
def execOraDiy (d : Byte) (s : State) : Answer := opOra (.mem (.diy d)) s

/-- `ORA` `dpi` (R168). -/
def execOraDpi (d : Byte) (s : State) : Answer := opOra (.mem (.dpi d)) s

/-- `ORA` `siy` (R168). -/
def execOraSiy (d : Byte) (s : State) : Answer := opOra (.mem (.siy d)) s

/-- `ORA` `dpx` (R168). -/
def execOraDpx (d : Byte) (s : State) : Answer := opOra (.mem (.dpx d)) s

/-- `ORA` `dly` (R168). -/
def execOraDly (d : Byte) (s : State) : Answer := opOra (.mem (.dly d)) s

/-- `ORA` `aby` (R168). -/
def execOraAby (a : Word) (s : State) : Answer := opOra (.mem (.aby a)) s

/-- `ORA` `abx` (R168). -/
def execOraAbx (a : Word) (s : State) : Answer := opOra (.mem (.abx a)) s

/-- `ORA` `alx` (R168). -/
def execOraAlx (al : Addr) (s : State) : Answer := opOra (.mem (.alx al)) s

/-- `EOR` `dxi` (R169). -/
def execEorDxi (d : Byte) (s : State) : Answer := opEor (.mem (.dxi d)) s

/-- `EOR` `sr` (R169). -/
def execEorSr (d : Byte) (s : State) : Answer := opEor (.mem (.sr d)) s

/-- `EOR` `dp` (R169). -/
def execEorDp (d : Byte) (s : State) : Answer := opEor (.mem (.dp d)) s

/-- `EOR` `dil` (R169). -/
def execEorDil (d : Byte) (s : State) : Answer := opEor (.mem (.dil d)) s

/-- `EOR` `imm_m` (R169). -/
def execEorImmM (k : Imm) (s : State) : Answer := opEor (.immM k) s

/-- `EOR` `abs` (R169). -/
def execEorAbs (a : Word) (s : State) : Answer := opEor (.mem (.abs a)) s

/-- `EOR` `abl` (R169). -/
def execEorAbl (al : Addr) (s : State) : Answer := opEor (.mem (.abl al)) s

/-- `EOR` `diy` (R169). -/
def execEorDiy (d : Byte) (s : State) : Answer := opEor (.mem (.diy d)) s

/-- `EOR` `dpi` (R169). -/
def execEorDpi (d : Byte) (s : State) : Answer := opEor (.mem (.dpi d)) s

/-- `EOR` `siy` (R169). -/
def execEorSiy (d : Byte) (s : State) : Answer := opEor (.mem (.siy d)) s

/-- `EOR` `dpx` (R169). -/
def execEorDpx (d : Byte) (s : State) : Answer := opEor (.mem (.dpx d)) s

/-- `EOR` `dly` (R169). -/
def execEorDly (d : Byte) (s : State) : Answer := opEor (.mem (.dly d)) s

/-- `EOR` `aby` (R169). -/
def execEorAby (a : Word) (s : State) : Answer := opEor (.mem (.aby a)) s

/-- `EOR` `abx` (R169). -/
def execEorAbx (a : Word) (s : State) : Answer := opEor (.mem (.abx a)) s

/-- `EOR` `alx` (R169). -/
def execEorAlx (al : Addr) (s : State) : Answer := opEor (.mem (.alx al)) s

/-- `BIT` `dp` (R170). -/
def execBitDp (d : Byte) (s : State) : Answer := opBit (.mem (.dp d)) s

/-- `BIT` `abs` (R170). -/
def execBitAbs (a : Word) (s : State) : Answer := opBit (.mem (.abs a)) s

/-- `BIT` `dpx` (R170). -/
def execBitDpx (d : Byte) (s : State) : Answer := opBit (.mem (.dpx d)) s

/-- `BIT` `abx` (R170). -/
def execBitAbx (a : Word) (s : State) : Answer := opBit (.mem (.abx a)) s

/-- `BIT` `imm_m` (R170). -/
def execBitImmM (k : Imm) (s : State) : Answer := opBit (.immM k) s

/-- `TSB` `dp` (R181). -/
def execTsbDp (d : Byte) (s : State) : Answer := opTsb (.dp d) s

/-- `TSB` `abs` (R181). -/
def execTsbAbs (a : Word) (s : State) : Answer := opTsb (.abs a) s

/-- `TRB` `dp` (R182). -/
def execTrbDp (d : Byte) (s : State) : Answer := opTrb (.dp d) s

/-- `TRB` `abs` (R182). -/
def execTrbAbs (a : Word) (s : State) : Answer := opTrb (.abs a) s

end Sys2Proof.Machine
end

