-- ==== Sys2Proof/Machine/Modify.lean ====
section
/-! DEFINITION. Increment, decrement, shift and rotate (`42_arithmetic_logic.md` R171 to R180). -/

namespace Sys2Proof.Machine

open Sys2Proof

/-- An increment, decrement, shift or rotate: the width, the carry and the operand give the result and the new carry. -/
abbrev Modifier := Width → Bool → Word → Word × Bool

/-- The accumulator form (R171, R172, section 5): the operand is `A_v`, the result goes back with `WriteA`. -/
def modifyAcc (f : Modifier) (s : State) : Answer :=
  let w := s.wA
  let q := f w s.p.c s.aV
  .next (((s.setC q.2).setNZ q.1 w).writeA q.1)

/-- The memory form: one effective address, a read, a write of the result at the same address, and the flags (R185). -/
def modifyMem (f : Modifier) (m : MemMode) (s : State) : Answer := finish do
  let w := s.wA
  let (ea, s) ← effAddr m s
  let (v, s) ← readW ea w s
  let q := f w s.p.c v
  let s ← writeW ea w q.1 s
  pure ((s.setC q.2).setNZ q.1 w)

/-- `INC` `acc` (R171). -/
def execIncAcc (s : State) : Answer := modifyAcc incW s

/-- `INC` `dp` (R171). -/
def execIncDp (d : Byte) (s : State) : Answer := modifyMem incW (.dp d) s

/-- `INC` `abs` (R171). -/
def execIncAbs (a : Word) (s : State) : Answer := modifyMem incW (.abs a) s

/-- `INC` `dpx` (R171). -/
def execIncDpx (d : Byte) (s : State) : Answer := modifyMem incW (.dpx d) s

/-- `INC` `abx` (R171). -/
def execIncAbx (a : Word) (s : State) : Answer := modifyMem incW (.abx a) s

/-- `DEC` `acc` (R172). -/
def execDecAcc (s : State) : Answer := modifyAcc decW s

/-- `DEC` `dp` (R172). -/
def execDecDp (d : Byte) (s : State) : Answer := modifyMem decW (.dp d) s

/-- `DEC` `abs` (R172). -/
def execDecAbs (a : Word) (s : State) : Answer := modifyMem decW (.abs a) s

/-- `DEC` `dpx` (R172). -/
def execDecDpx (d : Byte) (s : State) : Answer := modifyMem decW (.dpx d) s

/-- `DEC` `abx` (R172). -/
def execDecAbx (a : Word) (s : State) : Answer := modifyMem decW (.abx a) s

/-- `ASL` `dp` (R177). -/
def execAslDp (d : Byte) (s : State) : Answer := modifyMem aslW (.dp d) s

/-- `ASL` `acc` (R177). -/
def execAslAcc (s : State) : Answer := modifyAcc aslW s

/-- `ASL` `abs` (R177). -/
def execAslAbs (a : Word) (s : State) : Answer := modifyMem aslW (.abs a) s

/-- `ASL` `dpx` (R177). -/
def execAslDpx (d : Byte) (s : State) : Answer := modifyMem aslW (.dpx d) s

/-- `ASL` `abx` (R177). -/
def execAslAbx (a : Word) (s : State) : Answer := modifyMem aslW (.abx a) s

/-- `LSR` `dp` (R178). -/
def execLsrDp (d : Byte) (s : State) : Answer := modifyMem lsrW (.dp d) s

/-- `LSR` `acc` (R178). -/
def execLsrAcc (s : State) : Answer := modifyAcc lsrW s

/-- `LSR` `abs` (R178). -/
def execLsrAbs (a : Word) (s : State) : Answer := modifyMem lsrW (.abs a) s

/-- `LSR` `dpx` (R178). -/
def execLsrDpx (d : Byte) (s : State) : Answer := modifyMem lsrW (.dpx d) s

/-- `LSR` `abx` (R178). -/
def execLsrAbx (a : Word) (s : State) : Answer := modifyMem lsrW (.abx a) s

/-- `ROL` `dp` (R179). -/
def execRolDp (d : Byte) (s : State) : Answer := modifyMem rolW (.dp d) s

/-- `ROL` `acc` (R179). -/
def execRolAcc (s : State) : Answer := modifyAcc rolW s

/-- `ROL` `abs` (R179). -/
def execRolAbs (a : Word) (s : State) : Answer := modifyMem rolW (.abs a) s

/-- `ROL` `dpx` (R179). -/
def execRolDpx (d : Byte) (s : State) : Answer := modifyMem rolW (.dpx d) s

/-- `ROL` `abx` (R179). -/
def execRolAbx (a : Word) (s : State) : Answer := modifyMem rolW (.abx a) s

/-- `ROR` `dp` (R180). -/
def execRorDp (d : Byte) (s : State) : Answer := modifyMem rorW (.dp d) s

/-- `ROR` `acc` (R180). -/
def execRorAcc (s : State) : Answer := modifyAcc rorW s

/-- `ROR` `abs` (R180). -/
def execRorAbs (a : Word) (s : State) : Answer := modifyMem rorW (.abs a) s

/-- `ROR` `dpx` (R180). -/
def execRorDpx (d : Byte) (s : State) : Answer := modifyMem rorW (.dpx d) s

/-- `ROR` `abx` (R180). -/
def execRorAbx (a : Word) (s : State) : Answer := modifyMem rorW (.abx a) s

/-- `INX` (R173). -/
def execInx (s : State) : Answer :=
  .next ((s.writeX (truncW s.wX (s.xV + 1))).setNZ (truncW s.wX (s.xV + 1)) s.wX)

/-- `INY` (R174). -/
def execIny (s : State) : Answer :=
  .next ((s.writeY (truncW s.wX (s.yV + 1))).setNZ (truncW s.wX (s.yV + 1)) s.wX)

/-- `DEX` (R175). -/
def execDex (s : State) : Answer :=
  .next ((s.writeX (truncW s.wX (s.xV - 1))).setNZ (truncW s.wX (s.xV - 1)) s.wX)

/-- `DEY` (R176). -/
def execDey (s : State) : Answer :=
  .next ((s.writeY (truncW s.wX (s.yV - 1))).setNZ (truncW s.wX (s.yV - 1)) s.wX)

end Sys2Proof.Machine
end

