-- ==== Sys2Proof/Machine/Stack.lean ====
section
/-! DEFINITION. Pushes, pulls and push-effective-address (`44_stack.md` R231 to R247). -/

namespace Sys2Proof.Machine

open Sys2Proof

/-- `PHA` (R231). -/
def execPha (s : State) : Answer := finish (pushW s.wA s.a s)

/-- `PHX` (R232). -/
def execPhx (s : State) : Answer := finish (pushW s.wX s.x s)

/-- `PHY` (R233). -/
def execPhy (s : State) : Answer := finish (pushW s.wX s.y s)

/-- `PHP` (R234). -/
def execPhp (s : State) : Answer := finish (push8 s.p.toByte s)

/-- `PHB` (R235). -/
def execPhb (s : State) : Answer := finish (push8 s.db s)

/-- `PHD` (R236). -/
def execPhd (s : State) : Answer := finish (push16 s.d s)

/-- `PHK` (R237). -/
def execPhk (s : State) : Answer := finish (push8 s.pb s)

/-- `PLA` (R238). -/
def execPla (s : State) : Answer := finish do
  let w := s.wA
  let (v, s) ← pullW w s
  pure ((s.writeA v).setNZ v w)

/-- `PLX` (R239). -/
def execPlx (s : State) : Answer := finish do
  let w := s.wX
  let (v, s) ← pullW w s
  pure ((s.writeX v).setNZ v w)

/-- `PLY` (R240). -/
def execPly (s : State) : Answer := finish do
  let w := s.wX
  let (v, s) ← pullW w s
  pure ((s.writeY v).setNZ v w)

/-- `PLP` (R241): all eight flags, no clamping. -/
def execPlp (s : State) : Answer := finish do
  let (b, s) ← pull8 s
  pure (s.setP b)

/-- `PLB` (R242). -/
def execPlb (s : State) : Answer := finish do
  let (v, s) ← pull8 s
  pure ({ s with db := v }.setNZ (zextByte v) .w8)

/-- `PLD` (R243). -/
def execPld (s : State) : Answer := finish do
  let (v, s) ← pull16 s
  pure ({ s with d := v }.setNZ v .w16)

/-- `PEA` (R245): the operand itself is pushed. -/
def execPea (v : Word) (s : State) : Answer := finish (push16 v s)

/-- `PEI` (R246): the word at the direct-page location is pushed. -/
def execPei (d : Byte) (s : State) : Answer := finish do
  let (v, s) ← readWord (dpAddr s d 0) s
  push16 v s

/-- `PER` (R247): the post-operand counter plus the displacement is pushed. -/
def execPer (disp : Word) (s : State) : Answer := finish (push16 (s.pc + disp) s)

end Sys2Proof.Machine
end

