-- ==== Sys2Proof/Machine/Status.lean ====
section
/-! DEFINITION. Status flags, mode switch, no-operation, reserved opcode (`45_status_and_mode.md` R260 to R273). -/

namespace Sys2Proof.Machine

open Sys2Proof

/-- `CLC` (R260). -/
def execClc (s : State) : Answer := .next (s.setC false)

/-- `SEC` (R261). -/
def execSec (s : State) : Answer := .next (s.setC true)

/-- `CLI` (R262). -/
def execCli (s : State) : Answer := .next (s.setI false)

/-- `SEI` (R263). -/
def execSei (s : State) : Answer := .next (s.setI true)

/-- `CLD` (R264). -/
def execCld (s : State) : Answer := .next (s.setD false)

/-- `SED` (R265). -/
def execSed (s : State) : Answer := .next (s.setD true)

/-- `CLV` (R266). -/
def execClv (s : State) : Answer := .next (s.setV false)

/-- `REP` (R267). -/
def execRep (k : Byte) (s : State) : Answer := .next (s.setP (s.p.toByte &&& ~~~k))

/-- `SEP` (R268). -/
def execSep (k : Byte) (s : State) : Answer := .next (s.setP (s.p.toByte ||| k))

/-- `XCE` (R270): the carry and `E` are exchanged, and entering Emulation mode moves the stack to page 1. -/
def execXce (s : State) : Answer :=
  let s := { s with p := { s.p with c := s.e }, e := s.p.c }
  .next (if s.e then s.writeS s.sp else s)

/-- `NOP` (R271). -/
def execNop (s : State) : Answer := .next s

/-- `WDM` (R273): fatal by default, a two-byte no-operation under `nop2`. -/
def execWdm (_signature : Option Byte) (s : State) : Answer :=
  match s.cfg.wdmBehaviour with
  | .fatal => (fatal (.decodeError 0x42) s).answer
  | .nop2 => .next s

end Sys2Proof.Machine
end

