-- ==== Sys2Proof/Machine/System.lean ====
section
/-! DEFINITION. Software interrupts, return from interrupt, wait and stop (`47_system.md` R290 to R294). -/

namespace Sys2Proof.Machine

open Sys2Proof

/-- `BRK` (R290): the signature byte is ignored. -/
def execBrk (_signature : Byte) (s : State) : Answer := finish (interruptEntry .brk s.pc s)

/-- `COP` (R291). -/
def execCop (_signature : Byte) (s : State) : Answer := finish (interruptEntry .cop s.pc s)

/-- `RTI` (R292). -/
def execRti (s : State) : Answer := finish (interruptReturn s)

/-- `WAI` (R293). -/
def execWai (s : State) : Answer := .next { s with run := .waiting }

/-- `STP` (R294). -/
def execStp (s : State) : Answer := .next { s with run := .stopped }

end Sys2Proof.Machine
end

