-- ==== Sys2Proof/Machine/Transfers.lean ====
section
/-! DEFINITION. Register transfers and the exchange (`41_load_store_transfer.md` R138 to R150). The width is the
destination's; a narrow index register is zero-extended as a source. -/

namespace Sys2Proof.Machine

open Sys2Proof

/-- `TAX` (R138): v is `A[wX-1:0]`, all 16 stored bits at width 16. -/
def execTax (s : State) : Answer :=
  .next ((s.writeX (truncW s.wX s.a)).setNZ (truncW s.wX s.a) s.wX)

/-- `TAY` (R139): as `TAX` with `Y`. -/
def execTay (s : State) : Answer :=
  .next ((s.writeY (truncW s.wX s.a)).setNZ (truncW s.wX s.a) s.wX)

/-- `TXA` (R140): the source is `X` at its effective width, zero-extended. -/
def execTxa (s : State) : Answer :=
  .next ((s.writeA (truncW s.wA s.xV)).setNZ (truncW s.wA s.xV) s.wA)

/-- `TYA` (R141): as `TXA` with `Y`. -/
def execTya (s : State) : Answer :=
  .next ((s.writeA (truncW s.wA s.yV)).setNZ (truncW s.wA s.yV) s.wA)

/-- `TXY` (R142). -/
def execTxy (s : State) : Answer :=
  .next ((s.writeY s.xV).setNZ s.xV s.wX)

/-- `TYX` (R143). -/
def execTyx (s : State) : Answer :=
  .next ((s.writeX s.yV).setNZ s.yV s.wX)

/-- `TSX` (R144). -/
def execTsx (s : State) : Answer :=
  .next ((s.writeX (truncW s.wX s.sp)).setNZ (truncW s.wX s.sp) s.wX)

/-- `TXS` (R145): no flags. -/
def execTxs (s : State) : Answer :=
  .next (s.writeS s.xV)

/-- `TCD` (R146): always 16 bits. -/
def execTcd (s : State) : Answer :=
  .next ({ s with d := s.a }.setNZ s.a .w16)

/-- `TDC` (R147): always 16 bits. -/
def execTdc (s : State) : Answer :=
  .next ({ s with a := s.d }.setNZ s.d .w16)

/-- `TCS` (R148): no flags. -/
def execTcs (s : State) : Answer :=
  .next (s.writeS s.a)

/-- `TSC` (R149): always 16 bits. -/
def execTsc (s : State) : Answer :=
  .next ({ s with a := s.sp }.setNZ s.sp .w16)

/-- `XBA` (R150): always all 16 bits; the flags at width 8 from the new low byte. -/
def execXba (s : State) : Answer :=
  .next ({ s with a := mkWord (lowByte s.a) (highByte s.a) }.setNZ (zextByte (highByte s.a)) .w8)

end Sys2Proof.Machine
end

