-- ==== Sys2Proof/Machine/Dispatch.lean ====
section
/-! DEFINITION. The dispatch on the instruction (`30_encoding.md` R73): one arm per row of the opcode table, each one call
of the meaning of that row. The state's `PC` is the post-operand counter: the step has fetched every byte. -/

namespace Sys2Proof.Machine

open Sys2Proof

def exec (i : Instr) (s : State) : Host.Outcome State Fault Refusal :=
  match i with
  | .ldaDxi d => Sys2Proof.Machine.execLdaDxi d s
  | .ldaSr d => Sys2Proof.Machine.execLdaSr d s
  | .ldaDp d => Sys2Proof.Machine.execLdaDp d s
  | .ldaDil d => Sys2Proof.Machine.execLdaDil d s
  | .ldaImmM k => Sys2Proof.Machine.execLdaImmM k s
  | .ldaAbs a => Sys2Proof.Machine.execLdaAbs a s
  | .ldaAbl al => Sys2Proof.Machine.execLdaAbl al s
  | .ldaDiy d => Sys2Proof.Machine.execLdaDiy d s
  | .ldaDpi d => Sys2Proof.Machine.execLdaDpi d s
  | .ldaSiy d => Sys2Proof.Machine.execLdaSiy d s
  | .ldaDpx d => Sys2Proof.Machine.execLdaDpx d s
  | .ldaDly d => Sys2Proof.Machine.execLdaDly d s
  | .ldaAby a => Sys2Proof.Machine.execLdaAby a s
  | .ldaAbx a => Sys2Proof.Machine.execLdaAbx a s
  | .ldaAlx al => Sys2Proof.Machine.execLdaAlx al s
  | .ldxImmX k => Sys2Proof.Machine.execLdxImmX k s
  | .ldxDp d => Sys2Proof.Machine.execLdxDp d s
  | .ldxAbs a => Sys2Proof.Machine.execLdxAbs a s
  | .ldxDpy d => Sys2Proof.Machine.execLdxDpy d s
  | .ldxAby a => Sys2Proof.Machine.execLdxAby a s
  | .ldyImmX k => Sys2Proof.Machine.execLdyImmX k s
  | .ldyDp d => Sys2Proof.Machine.execLdyDp d s
  | .ldyAbs a => Sys2Proof.Machine.execLdyAbs a s
  | .ldyDpx d => Sys2Proof.Machine.execLdyDpx d s
  | .ldyAbx a => Sys2Proof.Machine.execLdyAbx a s
  | .staDxi d => Sys2Proof.Machine.execStaDxi d s
  | .staSr d => Sys2Proof.Machine.execStaSr d s
  | .staDp d => Sys2Proof.Machine.execStaDp d s
  | .staDil d => Sys2Proof.Machine.execStaDil d s
  | .staAbs a => Sys2Proof.Machine.execStaAbs a s
  | .staAbl al => Sys2Proof.Machine.execStaAbl al s
  | .staDiy d => Sys2Proof.Machine.execStaDiy d s
  | .staDpi d => Sys2Proof.Machine.execStaDpi d s
  | .staSiy d => Sys2Proof.Machine.execStaSiy d s
  | .staDpx d => Sys2Proof.Machine.execStaDpx d s
  | .staDly d => Sys2Proof.Machine.execStaDly d s
  | .staAby a => Sys2Proof.Machine.execStaAby a s
  | .staAbx a => Sys2Proof.Machine.execStaAbx a s
  | .staAlx al => Sys2Proof.Machine.execStaAlx al s
  | .stxDp d => Sys2Proof.Machine.execStxDp d s
  | .stxAbs a => Sys2Proof.Machine.execStxAbs a s
  | .stxDpy d => Sys2Proof.Machine.execStxDpy d s
  | .styDp d => Sys2Proof.Machine.execStyDp d s
  | .styAbs a => Sys2Proof.Machine.execStyAbs a s
  | .styDpx d => Sys2Proof.Machine.execStyDpx d s
  | .stzDp d => Sys2Proof.Machine.execStzDp d s
  | .stzDpx d => Sys2Proof.Machine.execStzDpx d s
  | .stzAbs a => Sys2Proof.Machine.execStzAbs a s
  | .stzAbx a => Sys2Proof.Machine.execStzAbx a s
  | .adcDxi d => Sys2Proof.Machine.execAdcDxi d s
  | .adcSr d => Sys2Proof.Machine.execAdcSr d s
  | .adcDp d => Sys2Proof.Machine.execAdcDp d s
  | .adcDil d => Sys2Proof.Machine.execAdcDil d s
  | .adcImmM k => Sys2Proof.Machine.execAdcImmM k s
  | .adcAbs a => Sys2Proof.Machine.execAdcAbs a s
  | .adcAbl al => Sys2Proof.Machine.execAdcAbl al s
  | .adcDiy d => Sys2Proof.Machine.execAdcDiy d s
  | .adcDpi d => Sys2Proof.Machine.execAdcDpi d s
  | .adcSiy d => Sys2Proof.Machine.execAdcSiy d s
  | .adcDpx d => Sys2Proof.Machine.execAdcDpx d s
  | .adcDly d => Sys2Proof.Machine.execAdcDly d s
  | .adcAby a => Sys2Proof.Machine.execAdcAby a s
  | .adcAbx a => Sys2Proof.Machine.execAdcAbx a s
  | .adcAlx al => Sys2Proof.Machine.execAdcAlx al s
  | .sbcDxi d => Sys2Proof.Machine.execSbcDxi d s
  | .sbcSr d => Sys2Proof.Machine.execSbcSr d s
  | .sbcDp d => Sys2Proof.Machine.execSbcDp d s
  | .sbcDil d => Sys2Proof.Machine.execSbcDil d s
  | .sbcImmM k => Sys2Proof.Machine.execSbcImmM k s
  | .sbcAbs a => Sys2Proof.Machine.execSbcAbs a s
  | .sbcAbl al => Sys2Proof.Machine.execSbcAbl al s
  | .sbcDiy d => Sys2Proof.Machine.execSbcDiy d s
  | .sbcDpi d => Sys2Proof.Machine.execSbcDpi d s
  | .sbcSiy d => Sys2Proof.Machine.execSbcSiy d s
  | .sbcDpx d => Sys2Proof.Machine.execSbcDpx d s
  | .sbcDly d => Sys2Proof.Machine.execSbcDly d s
  | .sbcAby a => Sys2Proof.Machine.execSbcAby a s
  | .sbcAbx a => Sys2Proof.Machine.execSbcAbx a s
  | .sbcAlx al => Sys2Proof.Machine.execSbcAlx al s
  | .cmpDxi d => Sys2Proof.Machine.execCmpDxi d s
  | .cmpSr d => Sys2Proof.Machine.execCmpSr d s
  | .cmpDp d => Sys2Proof.Machine.execCmpDp d s
  | .cmpDil d => Sys2Proof.Machine.execCmpDil d s
  | .cmpImmM k => Sys2Proof.Machine.execCmpImmM k s
  | .cmpAbs a => Sys2Proof.Machine.execCmpAbs a s
  | .cmpAbl al => Sys2Proof.Machine.execCmpAbl al s
  | .cmpDiy d => Sys2Proof.Machine.execCmpDiy d s
  | .cmpDpi d => Sys2Proof.Machine.execCmpDpi d s
  | .cmpSiy d => Sys2Proof.Machine.execCmpSiy d s
  | .cmpDpx d => Sys2Proof.Machine.execCmpDpx d s
  | .cmpDly d => Sys2Proof.Machine.execCmpDly d s
  | .cmpAby a => Sys2Proof.Machine.execCmpAby a s
  | .cmpAbx a => Sys2Proof.Machine.execCmpAbx a s
  | .cmpAlx al => Sys2Proof.Machine.execCmpAlx al s
  | .cpxImmX k => Sys2Proof.Machine.execCpxImmX k s
  | .cpxDp d => Sys2Proof.Machine.execCpxDp d s
  | .cpxAbs a => Sys2Proof.Machine.execCpxAbs a s
  | .cpyImmX k => Sys2Proof.Machine.execCpyImmX k s
  | .cpyDp d => Sys2Proof.Machine.execCpyDp d s
  | .cpyAbs a => Sys2Proof.Machine.execCpyAbs a s
  | .andDxi d => Sys2Proof.Machine.execAndDxi d s
  | .andSr d => Sys2Proof.Machine.execAndSr d s
  | .andDp d => Sys2Proof.Machine.execAndDp d s
  | .andDil d => Sys2Proof.Machine.execAndDil d s
  | .andImmM k => Sys2Proof.Machine.execAndImmM k s
  | .andAbs a => Sys2Proof.Machine.execAndAbs a s
  | .andAbl al => Sys2Proof.Machine.execAndAbl al s
  | .andDiy d => Sys2Proof.Machine.execAndDiy d s
  | .andDpi d => Sys2Proof.Machine.execAndDpi d s
  | .andSiy d => Sys2Proof.Machine.execAndSiy d s
  | .andDpx d => Sys2Proof.Machine.execAndDpx d s
  | .andDly d => Sys2Proof.Machine.execAndDly d s
  | .andAby a => Sys2Proof.Machine.execAndAby a s
  | .andAbx a => Sys2Proof.Machine.execAndAbx a s
  | .andAlx al => Sys2Proof.Machine.execAndAlx al s
  | .oraDxi d => Sys2Proof.Machine.execOraDxi d s
  | .oraSr d => Sys2Proof.Machine.execOraSr d s
  | .oraDp d => Sys2Proof.Machine.execOraDp d s
  | .oraDil d => Sys2Proof.Machine.execOraDil d s
  | .oraImmM k => Sys2Proof.Machine.execOraImmM k s
  | .oraAbs a => Sys2Proof.Machine.execOraAbs a s
  | .oraAbl al => Sys2Proof.Machine.execOraAbl al s
  | .oraDiy d => Sys2Proof.Machine.execOraDiy d s
  | .oraDpi d => Sys2Proof.Machine.execOraDpi d s
  | .oraSiy d => Sys2Proof.Machine.execOraSiy d s
  | .oraDpx d => Sys2Proof.Machine.execOraDpx d s
  | .oraDly d => Sys2Proof.Machine.execOraDly d s
  | .oraAby a => Sys2Proof.Machine.execOraAby a s
  | .oraAbx a => Sys2Proof.Machine.execOraAbx a s
  | .oraAlx al => Sys2Proof.Machine.execOraAlx al s
  | .eorDxi d => Sys2Proof.Machine.execEorDxi d s
  | .eorSr d => Sys2Proof.Machine.execEorSr d s
  | .eorDp d => Sys2Proof.Machine.execEorDp d s
  | .eorDil d => Sys2Proof.Machine.execEorDil d s
  | .eorImmM k => Sys2Proof.Machine.execEorImmM k s
  | .eorAbs a => Sys2Proof.Machine.execEorAbs a s
  | .eorAbl al => Sys2Proof.Machine.execEorAbl al s
  | .eorDiy d => Sys2Proof.Machine.execEorDiy d s
  | .eorDpi d => Sys2Proof.Machine.execEorDpi d s
  | .eorSiy d => Sys2Proof.Machine.execEorSiy d s
  | .eorDpx d => Sys2Proof.Machine.execEorDpx d s
  | .eorDly d => Sys2Proof.Machine.execEorDly d s
  | .eorAby a => Sys2Proof.Machine.execEorAby a s
  | .eorAbx a => Sys2Proof.Machine.execEorAbx a s
  | .eorAlx al => Sys2Proof.Machine.execEorAlx al s
  | .bitDp d => Sys2Proof.Machine.execBitDp d s
  | .bitAbs a => Sys2Proof.Machine.execBitAbs a s
  | .bitDpx d => Sys2Proof.Machine.execBitDpx d s
  | .bitAbx a => Sys2Proof.Machine.execBitAbx a s
  | .bitImmM k => Sys2Proof.Machine.execBitImmM k s
  | .incDp d => Sys2Proof.Machine.execIncDp d s
  | .incAbs a => Sys2Proof.Machine.execIncAbs a s
  | .incDpx d => Sys2Proof.Machine.execIncDpx d s
  | .incAbx a => Sys2Proof.Machine.execIncAbx a s
  | .decDp d => Sys2Proof.Machine.execDecDp d s
  | .decAbs a => Sys2Proof.Machine.execDecAbs a s
  | .decDpx d => Sys2Proof.Machine.execDecDpx d s
  | .decAbx a => Sys2Proof.Machine.execDecAbx a s
  | .aslDp d => Sys2Proof.Machine.execAslDp d s
  | .aslAbs a => Sys2Proof.Machine.execAslAbs a s
  | .aslDpx d => Sys2Proof.Machine.execAslDpx d s
  | .aslAbx a => Sys2Proof.Machine.execAslAbx a s
  | .lsrDp d => Sys2Proof.Machine.execLsrDp d s
  | .lsrAbs a => Sys2Proof.Machine.execLsrAbs a s
  | .lsrDpx d => Sys2Proof.Machine.execLsrDpx d s
  | .lsrAbx a => Sys2Proof.Machine.execLsrAbx a s
  | .rolDp d => Sys2Proof.Machine.execRolDp d s
  | .rolAbs a => Sys2Proof.Machine.execRolAbs a s
  | .rolDpx d => Sys2Proof.Machine.execRolDpx d s
  | .rolAbx a => Sys2Proof.Machine.execRolAbx a s
  | .rorDp d => Sys2Proof.Machine.execRorDp d s
  | .rorAbs a => Sys2Proof.Machine.execRorAbs a s
  | .rorDpx d => Sys2Proof.Machine.execRorDpx d s
  | .rorAbx a => Sys2Proof.Machine.execRorAbx a s
  | .tsbDp d => Sys2Proof.Machine.execTsbDp d s
  | .tsbAbs a => Sys2Proof.Machine.execTsbAbs a s
  | .trbDp d => Sys2Proof.Machine.execTrbDp d s
  | .trbAbs a => Sys2Proof.Machine.execTrbAbs a s
  | .bpl disp => Sys2Proof.Machine.execBpl disp s
  | .bmi disp => Sys2Proof.Machine.execBmi disp s
  | .bvc disp => Sys2Proof.Machine.execBvc disp s
  | .bvs disp => Sys2Proof.Machine.execBvs disp s
  | .bcc disp => Sys2Proof.Machine.execBcc disp s
  | .bcs disp => Sys2Proof.Machine.execBcs disp s
  | .bne disp => Sys2Proof.Machine.execBne disp s
  | .beq disp => Sys2Proof.Machine.execBeq disp s
  | .bra disp => Sys2Proof.Machine.execBra disp s
  | .brl disp => Sys2Proof.Machine.execBrl disp s
  | .jmpAbsPb a => Sys2Proof.Machine.execJmpAbsPb a s
  | .jmpAbi a => Sys2Proof.Machine.execJmpAbi a s
  | .jmpAxi a => Sys2Proof.Machine.execJmpAxi a s
  | .jmlAblPc t => Sys2Proof.Machine.execJmlAblPc t s
  | .jmlAil a => Sys2Proof.Machine.execJmlAil a s
  | .jsrAbsPb a => Sys2Proof.Machine.execJsrAbsPb a s
  | .jsrAxi a => Sys2Proof.Machine.execJsrAxi a s
  | .jsl t => Sys2Proof.Machine.execJsl t s
  | .pea v => Sys2Proof.Machine.execPea v s
  | .pei d => Sys2Proof.Machine.execPei d s
  | .per disp => Sys2Proof.Machine.execPer disp s
  | .rep k => Sys2Proof.Machine.execRep k s
  | .sep k => Sys2Proof.Machine.execSep k s
  | .wdm signature => Sys2Proof.Machine.execWdm signature s
  | .mvn dst src => Sys2Proof.Machine.execMvn dst src s
  | .mvp dst src => Sys2Proof.Machine.execMvp dst src s
  | .brk signature => Sys2Proof.Machine.execBrk signature s
  | .cop signature => Sys2Proof.Machine.execCop signature s
  | .tax => Sys2Proof.Machine.execTax s
  | .tay => Sys2Proof.Machine.execTay s
  | .txa => Sys2Proof.Machine.execTxa s
  | .tya => Sys2Proof.Machine.execTya s
  | .txy => Sys2Proof.Machine.execTxy s
  | .tyx => Sys2Proof.Machine.execTyx s
  | .tsx => Sys2Proof.Machine.execTsx s
  | .txs => Sys2Proof.Machine.execTxs s
  | .tcd => Sys2Proof.Machine.execTcd s
  | .tdc => Sys2Proof.Machine.execTdc s
  | .tcs => Sys2Proof.Machine.execTcs s
  | .tsc => Sys2Proof.Machine.execTsc s
  | .xba => Sys2Proof.Machine.execXba s
  | .incAcc => Sys2Proof.Machine.execIncAcc s
  | .decAcc => Sys2Proof.Machine.execDecAcc s
  | .inx => Sys2Proof.Machine.execInx s
  | .iny => Sys2Proof.Machine.execIny s
  | .dex => Sys2Proof.Machine.execDex s
  | .dey => Sys2Proof.Machine.execDey s
  | .aslAcc => Sys2Proof.Machine.execAslAcc s
  | .lsrAcc => Sys2Proof.Machine.execLsrAcc s
  | .rolAcc => Sys2Proof.Machine.execRolAcc s
  | .rorAcc => Sys2Proof.Machine.execRorAcc s
  | .rts => Sys2Proof.Machine.execRts s
  | .rtl => Sys2Proof.Machine.execRtl s
  | .pha => Sys2Proof.Machine.execPha s
  | .phx => Sys2Proof.Machine.execPhx s
  | .phy => Sys2Proof.Machine.execPhy s
  | .php => Sys2Proof.Machine.execPhp s
  | .phb => Sys2Proof.Machine.execPhb s
  | .phd => Sys2Proof.Machine.execPhd s
  | .phk => Sys2Proof.Machine.execPhk s
  | .pla => Sys2Proof.Machine.execPla s
  | .plx => Sys2Proof.Machine.execPlx s
  | .ply => Sys2Proof.Machine.execPly s
  | .plp => Sys2Proof.Machine.execPlp s
  | .plb => Sys2Proof.Machine.execPlb s
  | .pld => Sys2Proof.Machine.execPld s
  | .clc => Sys2Proof.Machine.execClc s
  | .sec => Sys2Proof.Machine.execSec s
  | .cli => Sys2Proof.Machine.execCli s
  | .sei => Sys2Proof.Machine.execSei s
  | .cld => Sys2Proof.Machine.execCld s
  | .sed => Sys2Proof.Machine.execSed s
  | .clv => Sys2Proof.Machine.execClv s
  | .xce => Sys2Proof.Machine.execXce s
  | .nop => Sys2Proof.Machine.execNop s
  | .rti => Sys2Proof.Machine.execRti s
  | .wai => Sys2Proof.Machine.execWai s
  | .stp => Sys2Proof.Machine.execStp s

end Sys2Proof.Machine
end

