-- ==== Sys2Proof/Machine/Step.lean ====
section
/-! DEFINITION. One step (`10_state.md` R31, `30_encoding.md` R71 to R73): in Running one instruction is fetched, decoded
and executed; in Waiting, Stopped and Halted nothing changes. -/

namespace Sys2Proof.Machine

open Sys2Proof

/-- `step()`. -/
def step (s : State) : Host.Outcome State Fault Refusal :=
  match s.run with
  | .running =>
    match fetchInstr s with
    | .ok (i, t) => exec i t
    | .error stop => stop.answer
  | .waiting => .next s
  | .stopped => .next s
  | .halted _ => .next s

/-- The host's placing of an instruction (log entry 6): `s` in Running, with the four bytes of `w`, those above `nbits`
zero, stored where the next step fetches, at `PB:PC` and the offsets after it in the same bank. -/
def State.withFetchWord (s : State) (nbits w : Nat) : State :=
  placeBytes { s with run := .running } s.pb s.pc (bytesOfNat (w % 2 ^ nbits))

end Sys2Proof.Machine
end

