-- ==== Sys2Proof/Machine/HostOps.lean ====
section
/-! DEFINITION. What the host may do between steps: reset (`70_reset_and_hazards.md` R340, R341), `interrupt(kind)`
(`60_exceptions.md` R318), the accessors (`10_state.md` R34), the trace hook (R329), and `step()`. A fatal error in one of
them is recorded in `run` (R320, R322). -/

namespace Sys2Proof.Machine

open Sys2Proof

/-! ## Fatal errors -/

/-- A fatal error recorded in `run` (R320): the Bus keeps the writes made before the failing access (R322). DESIGN CHOICE
(log entry 8): the registers are those of `s`, one of the outcomes R322 allows; no claim may rest on them. -/
def recordFatal (s : State) : Answer → Answer
  | .next t => .next t
  | .fault (.fatal reason bus) => .next { s with bus := bus, run := .halted reason }
  | .refused r => .refused r

/-! ## Reset -/

/-- The register effects of a reset (R341), with the draws of what it leaves unspecified. -/
def resetRegisters (draws : Draws) (s : State) : State :=
  { s with
    e := true
    p := { c := draws.c, z := draws.z, i := true, d := false, x := true, m := true, v := draws.v, n := draws.n }
    d := 0x0000
    db := 0x00
    pb := s.cfg.resetPb
    sp := mkWord 0x01 draws.sl
    run := .running
    a := draws.a
    x := draws.x
    y := draws.y }

/-- A reset (R341). The vector read can raise a fatal error; the machine then starts in Halted. -/
def resetWith (draws : Draws) (s : State) : Answer :=
  let r := resetRegisters draws s
  recordFatal r (finish do
    let (v, t) ← readWord r.cfg.vectors.reset r
    pure { t with pc := v })

/-- Construction (R340): the first reset of a machine with the given parameters and storage. -/
def construct (cfg : Config) (bus : Bus) : Answer :=
  resetWith cfg.draws { State.reset with cfg := cfg, bus := bus }

/-- A word of free values. -/
def freeWord (n : Nat) : Word := mkWord (freeByte (n + 1)) (freeByte n)

/-- A free flag. -/
def freeFlag (n : Nat) : Bool := (freeByte n).getLsbD 0

/-- The draws of a later reset (R341): free values, from eleven draws. -/
def freeDraws (n : Nat) : Draws where
  a := freeWord n
  x := freeWord (n + 2)
  y := freeWord (n + 4)
  sl := freeByte (n + 6)
  c := freeFlag (n + 7)
  z := freeFlag (n + 8)
  v := freeFlag (n + 9)
  n := freeFlag (n + 10)

/-- `reset()` of a machine that has run (R340): no effect in Halted. -/
def hostReset (s : State) : Answer :=
  match s.run with
  | .halted _ => .next s
  | .running | .waiting | .stopped => resetWith (freeDraws s.draws) { s with draws := s.draws + 11 }

/-! ## Interrupts -/

/-- The kinds the host may deliver (R318). -/
inductive HardwareInterrupt where
  | irq | nmi
  deriving DecidableEq, Repr

/-- The interrupt kind of a delivered interrupt. -/
def HardwareInterrupt.kind : HardwareInterrupt → InterruptKind
  | .irq => .irq
  | .nmi => .nmi

/-- `interrupt(kind)` (R318). A fatal error of the entry is an ordinary one (R311): it is recorded in `run`. -/
def interrupt (kind : HardwareInterrupt) (s : State) : Answer :=
  if s.cfg.interruptInputs then
    match s.run with
    | .stopped => .next s
    | .halted _ => .next s
    | .running | .waiting =>
      if kind = .irq ∧ s.p.i = true then .next { s with run := .running }
      else recordFatal s (finish (interruptEntry kind.kind s.pc { s with run := .running }))
  else .refused .noInterruptInputs

/-! ## Accessors (R34) -/

/-- The flags by name. -/
inductive Flag where
  | c | z | i | d | x | m | v | n
  deriving DecidableEq, Repr

/-- `read_flag(flag)`. -/
def readFlag (s : State) : Flag → Bool
  | .c => s.p.c
  | .z => s.p.z
  | .i => s.p.i
  | .d => s.p.d
  | .x => s.p.x
  | .m => s.p.m
  | .v => s.p.v
  | .n => s.p.n

/-- A host's write of one field, at its full stored width. -/
inductive HostWrite where
  | a (v : Word)
  | x (v : Word)
  | y (v : Word)
  | sp (v : Word)
  | d (v : Word)
  | db (v : Byte)
  | pb (v : Byte)
  | pc (v : Word)
  | flag (f : Flag) (b : Bool)
  | e (b : Bool)
  | run (r : Run)
  deriving DecidableEq, Repr

/-- `set_flag(flag, bool)` on the flag vector. -/
def Flags.set (p : Flags) (b : Bool) : Flag → Flags
  | .c => { p with c := b }
  | .z => { p with z := b }
  | .i => { p with i := b }
  | .d => { p with d := b }
  | .x => { p with x := b }
  | .m => { p with m := b }
  | .v => { p with v := b }
  | .n => { p with n := b }

/-- A host's write of one field (log entry 16). A write of `S` or `E` is applied through `WriteS`, so that it keeps the
Emulation invariant of R12. DESIGN CHOICE: a write of `run` ends Waiting and Stopped, as R34 and D39 let the host write
every field, although R31, R294, R340 and D23 name reset as the only way out of Stopped. It does not end Halted, which no
operation changes (R31). -/
def hostWrite (w : HostWrite) (s : State) : State :=
  match w with
  | .a v => { s with a := v }
  | .x v => { s with x := v }
  | .y v => { s with y := v }
  | .sp v => s.writeS v
  | .d v => { s with d := v }
  | .db v => { s with db := v }
  | .pb v => { s with pb := v }
  | .pc v => { s with pc := v }
  | .flag f b => { s with p := s.p.set b f }
  | .e b => { s with e := b }.writeS s.sp
  | .run r =>
    match s.run with
    | .halted _ => s
    | .running | .waiting | .stopped => { s with run := r }

/-- The host's change of the device state between steps (`20_memory.md` R61); `poke` changes a stored byte. -/
def hostDevice (d : DeviceState) (s : State) : State := { s with bus := { s.bus with device := d } }

/-! ## The trace hook (R329) -/

/-- What the hook is called with. -/
structure TraceEntry where
  addr : Addr
  opcode : Byte
  mnemonic : String
  deriving DecidableEq, Repr

/-- The call the hook gets for a step from `s`: none where the hook is absent, where no instruction runs, and where the
step does not complete. -/
def traceOf (s : State) : Option TraceEntry :=
  if s.cfg.traceHook then
    match s.run with
    | .running =>
      match fetchInstr s with
      | .ok (i, _) =>
        match step s with
        | .next _ => some { addr := mkAddr s.pb s.pc, opcode := i.opcode, mnemonic := i.mnemonic.name }
        | .fault _ => none
        | .refused _ => none
      | .error _ => none
    | .waiting | .stopped | .halted _ => none
  else none

/-! ## `step()` as the host sees it -/

/-- `step()` with a fatal error recorded in `run` (R320). -/
def hostStep (s : State) : Answer := recordFatal s (step s)

end Sys2Proof.Machine
end

