-- ==== Sys2Proof/Safety.lean ====
section
/-! DEFINITION. The terms claims use: the invariants of the machine, and the addresses a run may use safely. -/

namespace Sys2Proof.Machine

open Sys2Proof

/-- The Emulation invariant of `S` (`10_state.md` R12): while `E = 1` the high byte is 0x01. -/
def State.stackPageOk (s : State) : Bool := !s.e || highByte s.sp == 0x01

/-- The invariant every step keeps: the Emulation invariant, and memory in canonical form. -/
def State.inv (s : State) : Bool := s.stackPageOk && s.bus.wf

/-- Whether a place is plain read-write storage (`20_memory.md` R52, R56). -/
def Place.isRam : Place → Bool
  | .workRam _ => true
  | .saveRam _ => true
  | .rom _ => false
  | .registerWindow => false
  | .device => false
  | .unmapped => false

/-- Whether an address names plain read-write storage. -/
def isRam (s : State) (addr : Addr) : Bool := (locate s.cfg addr).isRam

/-- Every address names plain read-write storage: the Bus of `95_test_vectors.md` T0. -/
def AllRam (s : State) : Prop := ∀ addr : Addr, isRam s addr = true

/-- Two addresses name different stored bytes. -/
def apart (s : State) (a b : Addr) : Bool := locate s.cfg a != locate s.cfg b

/-- Where an access can raise `UnmappedAddress(addr)` (`60_exceptions.md` R321): the address is in no region, past the end of
the image (`20_memory.md` R55), or the device's, and the device raises it in some state. -/
def raisesUnmapped (cfg : Config) (addr : Addr) : Prop :=
  locate cfg addr = .unmapped ∨ (∃ k, locate cfg addr = .rom k ∧ cfg.imageSize ≤ k) ∨
  (locate cfg addr = .device ∧
    ((∃ d, deviceRead d addr = none) ∨ ∃ d v, deviceWrite d addr v = .error .unmapped))

/-- Where an access can raise `WriteToReadOnly(addr)` (R321): the address is ROM, or the device's, and the device raises it
in some state. -/
def raisesReadOnly (cfg : Config) (addr : Addr) : Prop :=
  (∃ k, locate cfg addr = .rom k) ∨ (locate cfg addr = .device ∧ ∃ d v, deviceWrite d addr v = .error .readOnly)

/-- The instruction's own stop conditions are off: `WDM` is not fatal, and decimal addition is not refused. -/
def runnable (i : Instr) (s : State) : Bool :=
  match i.mnemonic with
  | .wdm => s.cfg.wdmBehaviour == .nop2
  | .adc => !(s.cfg.decimalArith == .refuse && s.p.d)
  | .sbc => !(s.cfg.decimalArith == .refuse && s.p.d)
  | _ => true

/-! ## Values and addresses, as numbers and as stored bytes -/

/-- `X_v` as a number (`10_state.md` R22, R23). -/
def State.xNat (s : State) : Nat := if s.e || s.p.x then s.x.toNat % 256 else s.x.toNat

/-- `Y_v` as a number (R22, R23). -/
def State.yNat (s : State) : Nat := if s.e || s.p.x then s.y.toNat % 256 else s.y.toNat

/-- `D_eff` as a number (`40_addressing_modes.md` R100). -/
def State.dNat (s : State) : Nat := if s.e then s.d.toNat / 256 * 256 else s.d.toNat

/-- `DpAddr(d, idx)` as a number (R100). -/
def State.dpNat (s : State) (d idx : Nat) : Nat :=
  if s.e && s.cfg.emuDpPageWrap then s.dNat + (d + idx) % 256 else (s.dNat + d + idx) % 65536

/-- The signed reading of a value at a width (`00_scope.md` R4). -/
def signedAt (w : Width) (v : Word) : Int :=
  if v.toNat < 2 ^ (bitsOf w - 1) then (v.toNat : Int) else (v.toNat : Int) - 2 ^ bitsOf w

/-- The word stored at an address and its successor, where both bytes are stored. -/
def storedWord (s : State) (addr : Addr) : Option Word :=
  match peek s addr, peek s (addr + 1) with
  | some lo, some hi => some (mkWord hi lo)
  | _, _ => none

/-- The three bytes stored at an address and its two successors, where all are stored. -/
def storedLong (s : State) (addr : Addr) : Option Addr :=
  match peek s addr, peek s (addr + 1), peek s (addr + 2) with
  | some lo, some hi, some bank => some (mkAddr bank (mkWord hi lo))
  | _, _, _ => none

/-- `S` after `k` pushes of one byte: the offset the next push writes (`40_addressing_modes.md` R118). -/
def pushSlot (s : State) : Nat → Word
  | 0 => s.sp
  | k + 1 => (s.writeS (pushSlot s k - 1)).sp

/-- `S` after `k` pulls of one byte: the offset the last one read (R119). -/
def pullSlot (s : State) : Nat → Word
  | 0 => s.sp
  | k + 1 => (s.writeS (pullSlot s k + 1)).sp

/-- The first `n` push slots are RAM and name different bytes. -/
def stackRoom (s : State) (n : Nat) : Prop :=
  (∀ k, k < n → isRam s (bank0 (pushSlot s k)) = true) ∧
  (∀ j k, j < n → k < n → j ≠ k → apart s (bank0 (pushSlot s j)) (bank0 (pushSlot s k)) = true)

/-- The bytes of a width. -/
def bytesAt : Width → Nat
  | .w8 => 1
  | .w16 => 2

/-- How many bytes an instruction pushes (`44_stack.md` R231 to R247, `43_control_transfer.md` R213, R214,
`60_exceptions.md` R305). -/
def pushedBytes (i : Instr) (s : State) : Nat :=
  match i.mnemonic with
  | .pha => bytesAt s.wA
  | .phx => bytesAt s.wX
  | .phy => bytesAt s.wX
  | .php => 1
  | .phb => 1
  | .phk => 1
  | .phd => 2
  | .pea => 2
  | .pei => 2
  | .per => 2
  | .jsr => 2
  | .jsl => 3
  | .brk => if s.e then 3 else 4
  | .cop => if s.e then 3 else 4
  | _ => 0

/-- The width of the datum an instruction stores at its effective address, for the instructions that store one
(`41_load_store_transfer.md` R134 to R137, `42_arithmetic_logic.md` R171 to R182). -/
def storedWidth (i : Instr) (s : State) : Option Width :=
  match i.mnemonic with
  | .sta => some s.wA
  | .stz => some s.wA
  | .stx => some s.wX
  | .sty => some s.wX
  | .inc => some s.wA
  | .dec => some s.wA
  | .asl => some s.wA
  | .lsr => some s.wA
  | .rol => some s.wA
  | .ror => some s.wA
  | .tsb => some s.wA
  | .trb => some s.wA
  | _ => none

end Sys2Proof.Machine
end

