-- ==== Sys2Proof/Certificates/Slice0/Obligations.lean ====
section
/-! DEFINITION. The statements for the provers, from the numbered rules of spec/. The spec's own primitives (`WriteA`,
`SetNZ`, `Load`, `MemWrite`, ...) stand under their names; what each means is stated first. -/

open Sys2Proof Sys2Proof.Machine

/-! ## Encoding (`30_encoding.md`) -/

/-- R70, R74, R75, R77: decoding the bytes of a well-formed instruction gives it back, with the bytes after it, for every
instruction and every operand value. -/
def Obligations.DecodeAfterEncodeIsIdentity : Prop :=
  ∀ (c : DecodeContext) (i : Instr) (rest : List Byte),
    WellFormed c i = true → decode c (encode i ++ rest) = .ok (i, rest)

/-- R70, R74, R75: whatever bytes decode, the instruction read is well-formed and encodes to exactly those bytes. -/
def Obligations.EncodeAfterDecodeIsIdentity : Prop :=
  ∀ (c : DecodeContext) (bytes rest : List Byte) (i : Instr),
    decode c bytes = .ok (i, rest) → WellFormed c i = true ∧ encode i ++ rest = bytes

/-- Row 00 of the opcode map of `30_encoding.md` R78. -/
def Sys2Proof.mapRow0 : List (Byte × Mnemonic × ModeId) :=
  [(0x00, .brk, .stkInt), (0x01, .ora, .dxi), (0x02, .cop, .stkInt), (0x03, .ora, .sr), (0x04, .tsb, .dp),
   (0x05, .ora, .dp), (0x06, .asl, .dp), (0x07, .ora, .dil), (0x08, .php, .stkPush), (0x09, .ora, .immM),
   (0x0A, .asl, .acc), (0x0B, .phd, .stkPush), (0x0C, .tsb, .abs), (0x0D, .ora, .abs), (0x0E, .asl, .abs),
   (0x0F, .ora, .abl)]

/-- Row 10 of the opcode map of `30_encoding.md` R78. -/
def Sys2Proof.mapRow1 : List (Byte × Mnemonic × ModeId) :=
  [(0x10, .bpl, .rel), (0x11, .ora, .diy), (0x12, .ora, .dpi), (0x13, .ora, .siy), (0x14, .trb, .dp),
   (0x15, .ora, .dpx), (0x16, .asl, .dpx), (0x17, .ora, .dly), (0x18, .clc, .imp), (0x19, .ora, .aby),
   (0x1A, .inc, .acc), (0x1B, .tcs, .imp), (0x1C, .trb, .abs), (0x1D, .ora, .abx), (0x1E, .asl, .abx),
   (0x1F, .ora, .alx)]

/-- Row 20 of the opcode map of `30_encoding.md` R78. -/
def Sys2Proof.mapRow2 : List (Byte × Mnemonic × ModeId) :=
  [(0x20, .jsr, .absPb), (0x21, .and, .dxi), (0x22, .jsl, .ablPc), (0x23, .and, .sr), (0x24, .bit, .dp),
   (0x25, .and, .dp), (0x26, .rol, .dp), (0x27, .and, .dil), (0x28, .plp, .stkPull), (0x29, .and, .immM),
   (0x2A, .rol, .acc), (0x2B, .pld, .stkPull), (0x2C, .bit, .abs), (0x2D, .and, .abs), (0x2E, .rol, .abs),
   (0x2F, .and, .abl)]

/-- Row 30 of the opcode map of `30_encoding.md` R78. -/
def Sys2Proof.mapRow3 : List (Byte × Mnemonic × ModeId) :=
  [(0x30, .bmi, .rel), (0x31, .and, .diy), (0x32, .and, .dpi), (0x33, .and, .siy), (0x34, .bit, .dpx),
   (0x35, .and, .dpx), (0x36, .rol, .dpx), (0x37, .and, .dly), (0x38, .sec, .imp), (0x39, .and, .aby),
   (0x3A, .dec, .acc), (0x3B, .tsc, .imp), (0x3C, .bit, .abx), (0x3D, .and, .abx), (0x3E, .rol, .abx),
   (0x3F, .and, .alx)]

/-- Row 40 of the opcode map of `30_encoding.md` R78. -/
def Sys2Proof.mapRow4 : List (Byte × Mnemonic × ModeId) :=
  [(0x40, .rti, .stkPull), (0x41, .eor, .dxi), (0x42, .wdm, .wdm), (0x43, .eor, .sr), (0x44, .mvp, .blk),
   (0x45, .eor, .dp), (0x46, .lsr, .dp), (0x47, .eor, .dil), (0x48, .pha, .stkPush), (0x49, .eor, .immM),
   (0x4A, .lsr, .acc), (0x4B, .phk, .stkPush), (0x4C, .jmp, .absPb), (0x4D, .eor, .abs), (0x4E, .lsr, .abs),
   (0x4F, .eor, .abl)]

/-- Row 50 of the opcode map of `30_encoding.md` R78. -/
def Sys2Proof.mapRow5 : List (Byte × Mnemonic × ModeId) :=
  [(0x50, .bvc, .rel), (0x51, .eor, .diy), (0x52, .eor, .dpi), (0x53, .eor, .siy), (0x54, .mvn, .blk),
   (0x55, .eor, .dpx), (0x56, .lsr, .dpx), (0x57, .eor, .dly), (0x58, .cli, .imp), (0x59, .eor, .aby),
   (0x5A, .phy, .stkPush), (0x5B, .tcd, .imp), (0x5C, .jml, .ablPc), (0x5D, .eor, .abx), (0x5E, .lsr, .abx),
   (0x5F, .eor, .alx)]

/-- Row 60 of the opcode map of `30_encoding.md` R78. -/
def Sys2Proof.mapRow6 : List (Byte × Mnemonic × ModeId) :=
  [(0x60, .rts, .stkPull), (0x61, .adc, .dxi), (0x62, .per, .stkRell), (0x63, .adc, .sr), (0x64, .stz, .dp),
   (0x65, .adc, .dp), (0x66, .ror, .dp), (0x67, .adc, .dil), (0x68, .pla, .stkPull), (0x69, .adc, .immM),
   (0x6A, .ror, .acc), (0x6B, .rtl, .stkPull), (0x6C, .jmp, .abi), (0x6D, .adc, .abs), (0x6E, .ror, .abs),
   (0x6F, .adc, .abl)]

/-- Row 70 of the opcode map of `30_encoding.md` R78. -/
def Sys2Proof.mapRow7 : List (Byte × Mnemonic × ModeId) :=
  [(0x70, .bvs, .rel), (0x71, .adc, .diy), (0x72, .adc, .dpi), (0x73, .adc, .siy), (0x74, .stz, .dpx),
   (0x75, .adc, .dpx), (0x76, .ror, .dpx), (0x77, .adc, .dly), (0x78, .sei, .imp), (0x79, .adc, .aby),
   (0x7A, .ply, .stkPull), (0x7B, .tdc, .imp), (0x7C, .jmp, .axi), (0x7D, .adc, .abx), (0x7E, .ror, .abx),
   (0x7F, .adc, .alx)]

/-- Row 80 of the opcode map of `30_encoding.md` R78. -/
def Sys2Proof.mapRow8 : List (Byte × Mnemonic × ModeId) :=
  [(0x80, .bra, .rel), (0x81, .sta, .dxi), (0x82, .brl, .rell), (0x83, .sta, .sr), (0x84, .sty, .dp),
   (0x85, .sta, .dp), (0x86, .stx, .dp), (0x87, .sta, .dil), (0x88, .dey, .imp), (0x89, .bit, .immM),
   (0x8A, .txa, .imp), (0x8B, .phb, .stkPush), (0x8C, .sty, .abs), (0x8D, .sta, .abs), (0x8E, .stx, .abs),
   (0x8F, .sta, .abl)]

/-- Row 90 of the opcode map of `30_encoding.md` R78. -/
def Sys2Proof.mapRow9 : List (Byte × Mnemonic × ModeId) :=
  [(0x90, .bcc, .rel), (0x91, .sta, .diy), (0x92, .sta, .dpi), (0x93, .sta, .siy), (0x94, .sty, .dpx),
   (0x95, .sta, .dpx), (0x96, .stx, .dpy), (0x97, .sta, .dly), (0x98, .tya, .imp), (0x99, .sta, .aby),
   (0x9A, .txs, .imp), (0x9B, .txy, .imp), (0x9C, .stz, .abs), (0x9D, .sta, .abx), (0x9E, .stz, .abx),
   (0x9F, .sta, .alx)]

/-- Row A0 of the opcode map of `30_encoding.md` R78. -/
def Sys2Proof.mapRowA : List (Byte × Mnemonic × ModeId) :=
  [(0xA0, .ldy, .immX), (0xA1, .lda, .dxi), (0xA2, .ldx, .immX), (0xA3, .lda, .sr), (0xA4, .ldy, .dp),
   (0xA5, .lda, .dp), (0xA6, .ldx, .dp), (0xA7, .lda, .dil), (0xA8, .tay, .imp), (0xA9, .lda, .immM),
   (0xAA, .tax, .imp), (0xAB, .plb, .stkPull), (0xAC, .ldy, .abs), (0xAD, .lda, .abs), (0xAE, .ldx, .abs),
   (0xAF, .lda, .abl)]

/-- Row B0 of the opcode map of `30_encoding.md` R78. -/
def Sys2Proof.mapRowB : List (Byte × Mnemonic × ModeId) :=
  [(0xB0, .bcs, .rel), (0xB1, .lda, .diy), (0xB2, .lda, .dpi), (0xB3, .lda, .siy), (0xB4, .ldy, .dpx),
   (0xB5, .lda, .dpx), (0xB6, .ldx, .dpy), (0xB7, .lda, .dly), (0xB8, .clv, .imp), (0xB9, .lda, .aby),
   (0xBA, .tsx, .imp), (0xBB, .tyx, .imp), (0xBC, .ldy, .abx), (0xBD, .lda, .abx), (0xBE, .ldx, .aby),
   (0xBF, .lda, .alx)]

/-- Row C0 of the opcode map of `30_encoding.md` R78. -/
def Sys2Proof.mapRowC : List (Byte × Mnemonic × ModeId) :=
  [(0xC0, .cpy, .immX), (0xC1, .cmp, .dxi), (0xC2, .rep, .imm8), (0xC3, .cmp, .sr), (0xC4, .cpy, .dp),
   (0xC5, .cmp, .dp), (0xC6, .dec, .dp), (0xC7, .cmp, .dil), (0xC8, .iny, .imp), (0xC9, .cmp, .immM),
   (0xCA, .dex, .imp), (0xCB, .wai, .imp), (0xCC, .cpy, .abs), (0xCD, .cmp, .abs), (0xCE, .dec, .abs),
   (0xCF, .cmp, .abl)]

/-- Row D0 of the opcode map of `30_encoding.md` R78. -/
def Sys2Proof.mapRowD : List (Byte × Mnemonic × ModeId) :=
  [(0xD0, .bne, .rel), (0xD1, .cmp, .diy), (0xD2, .cmp, .dpi), (0xD3, .cmp, .siy), (0xD4, .pei, .stkDpi),
   (0xD5, .cmp, .dpx), (0xD6, .dec, .dpx), (0xD7, .cmp, .dly), (0xD8, .cld, .imp), (0xD9, .cmp, .aby),
   (0xDA, .phx, .stkPush), (0xDB, .stp, .imp), (0xDC, .jml, .ail), (0xDD, .cmp, .abx), (0xDE, .dec, .abx),
   (0xDF, .cmp, .alx)]

/-- Row E0 of the opcode map of `30_encoding.md` R78. -/
def Sys2Proof.mapRowE : List (Byte × Mnemonic × ModeId) :=
  [(0xE0, .cpx, .immX), (0xE1, .sbc, .dxi), (0xE2, .sep, .imm8), (0xE3, .sbc, .sr), (0xE4, .cpx, .dp),
   (0xE5, .sbc, .dp), (0xE6, .inc, .dp), (0xE7, .sbc, .dil), (0xE8, .inx, .imp), (0xE9, .sbc, .immM),
   (0xEA, .nop, .imp), (0xEB, .xba, .imp), (0xEC, .cpx, .abs), (0xED, .sbc, .abs), (0xEE, .inc, .abs),
   (0xEF, .sbc, .abl)]

/-- Row F0 of the opcode map of `30_encoding.md` R78. -/
def Sys2Proof.mapRowF : List (Byte × Mnemonic × ModeId) :=
  [(0xF0, .beq, .rel), (0xF1, .sbc, .diy), (0xF2, .sbc, .dpi), (0xF3, .sbc, .siy), (0xF4, .pea, .stkAbs),
   (0xF5, .sbc, .dpx), (0xF6, .inc, .dpx), (0xF7, .sbc, .dly), (0xF8, .sed, .imp), (0xF9, .sbc, .aby),
   (0xFA, .plx, .stkPull), (0xFB, .xce, .imp), (0xFC, .jsr, .axi), (0xFD, .sbc, .abx), (0xFE, .inc, .abx),
   (0xFF, .sbc, .alx)]

/-- R77, R78: the opcode, the mnemonic and the mode of every instruction are the cell of the 256-entry table, the sixteen
rows above, that the opcode selects. -/
def Obligations.OpcodeMapIsTheTable : Prop :=
  ∀ i : Instr,
    (mapRow0 ++ mapRow1 ++ mapRow2 ++ mapRow3 ++ mapRow4 ++ mapRow5 ++ mapRow6 ++ mapRow7 ++
      mapRow8 ++ mapRow9 ++ mapRowA ++ mapRowB ++ mapRowC ++ mapRowD ++ mapRowE ++ mapRowF)[i.opcode.toNat]? =
      some (i.opcode, i.mnemonic, i.operand.mode)

/-- R73, R80: every opcode value followed by three bytes decodes, to an instruction of that opcode. -/
def Obligations.EveryOpcodeDecodes : Prop :=
  ∀ (c : DecodeContext) (op b1 b2 b3 : Byte) (rest : List Byte),
    ∃ (i : Instr) (left : List Byte), decode c (op :: b1 :: b2 :: b3 :: rest) = .ok (i, left) ∧ i.opcode = op

/-- R70, R74, R75: the length of an instruction is one byte plus the operand bytes of its mode; only the immediate modes
and the reserved opcode depend on the context. -/
def Obligations.InstructionLengthFollowsMode : Prop :=
  ∀ (c : DecodeContext) (i : Instr), WellFormed c i = true →
    (encode i).length = 1 + (match i.operand.mode with
      | .imp | .acc | .stkPush | .stkPull => 0
      | .immM => if c.m8 then 1 else 2
      | .immX => if c.x8 then 1 else 2
      | .wdm => if c.wdmSignature then 1 else 0
      | .imm8 | .dp | .dpx | .dpy | .dpi | .dxi | .diy | .dil | .dly | .sr | .siy | .rel | .stkDpi | .stkInt => 1
      | .abs | .absPb | .abx | .aby | .abi | .axi | .ail | .rell | .stkAbs | .stkRell | .blk => 2
      | .abl | .ablPc | .alx => 3)

/-- R77, R85 and the examples of `41_` to `47_`: words written out from the spec's encodings decode to the instructions
they stand for, one of each family. -/
def Obligations.SampleWordsDecode : Prop :=
  decode ⟨false, false, false⟩ [0x6D, 0x10, 0x03] = .ok (.adcAbs 0x0310, []) ∧
  decode ⟨true, true, false⟩ [0xA9, 0x34, 0x12] = .ok (.ldaImmM (.byte 0x34), [0x12]) ∧
  decode ⟨false, true, false⟩ [0xA9, 0x34, 0x12] = .ok (.ldaImmM (.word 0x1234), []) ∧
  decode ⟨true, true, false⟩ [0xAA] = .ok (.tax, []) ∧
  decode ⟨true, true, false⟩ [0x10, 0x05] = .ok (.bpl 0x05, []) ∧
  decode ⟨true, true, false⟩ [0x22, 0x00, 0x90, 0xC1] = .ok (.jsl 0xC19000, []) ∧
  decode ⟨true, true, false⟩ [0xF4, 0x34, 0x12] = .ok (.pea 0x1234, []) ∧
  decode ⟨true, true, false⟩ [0xC2, 0x30] = .ok (.rep 0x30, []) ∧
  decode ⟨true, true, false⟩ [0x54, 0x7F, 0x7E] = .ok (.mvn 0x7F 0x7E, []) ∧
  decode ⟨true, true, false⟩ [0x00, 0xAB] = .ok (.brk 0xAB, [])

/-! ## The step -/

/-- `30_encoding.md` R71 to R73: when the bytes at `PB:PC`, at offsets that wrap inside the bank, are those of a
well-formed instruction, a step in Running is `exec` of it with `PC` at the post-operand counter. -/
def Obligations.StepRunsDecodedInstruction : Prop :=
  ∀ (s : State) (i : Instr), s.run = .running → WellFormed s.decodeContext i = true →
    (∀ (k : Nat) (h : k < (encode i).length),
      peek s (mkAddr s.pb (s.pc + BitVec.ofNat 16 k)) = some ((encode i)[k])) →
    step s = exec i { s with pc := s.pc + BitVec.ofNat 16 (encode i).length }

/-- `10_state.md` R31: in Waiting, Stopped and Halted a step changes nothing. -/
def Obligations.StepOutsideRunningChangesNothing : Prop :=
  ∀ s : State, s.run ≠ .running → step s = .next s

/-! ## Reset (`70_reset_and_hazards.md`) -/

/-- R342: what construction leaves in every field, for any parameters, draws and storage that hold a reset vector. The
count of free values is the model's own field. -/
def Obligations.ConstructionLeavesResetValues : Prop :=
  ∀ (cfg : Config) (bus : Bus) (entry : Word),
    storedWord { State.reset with cfg := cfg, bus := bus } cfg.vectors.reset = some entry →
    construct cfg bus = .next
      { a := cfg.draws.a, x := cfg.draws.x, y := cfg.draws.y, sp := mkWord 0x01 cfg.draws.sl, d := 0x0000, db := 0x00,
        pb := cfg.resetPb, pc := entry,
        p := { c := cfg.draws.c, z := cfg.draws.z, i := true, d := false, x := true, m := true, v := cfg.draws.v,
               n := cfg.draws.n },
        e := true, run := .running, bus := bus, cfg := cfg, draws := 0 }

/-- R340, R341: a later reset gives every specified field its value and touches no storage; in Halted it changes nothing,
whatever is stored at the vector. Nothing is said of the fields R341 leaves unspecified. -/
def Obligations.LaterResetSetsSpecifiedFields : Prop :=
  ∀ s : State,
    (∀ entry, storedWord s s.cfg.vectors.reset = some entry → (∀ reason, s.run ≠ .halted reason) →
      ∃ t, hostReset s = .next t ∧ t.e = true ∧ t.p.m = true ∧ t.p.x = true ∧ t.p.i = true ∧ t.p.d = false ∧
        t.d = 0x0000 ∧ t.db = 0x00 ∧ t.pb = s.cfg.resetPb ∧ highByte t.sp = 0x01 ∧ t.pc = entry ∧ t.run = .running ∧
        t.bus = s.bus ∧ t.cfg = s.cfg) ∧
    (∀ reason, s.run = .halted reason → hostReset s = .next s)

/-- The invariant of `StepKeepsInvariant` holds right after reset. The canonical form of memory is the model's own (log
entry 9). -/
def Obligations.InvariantHoldsAtReset : Prop := State.reset.inv = true

/-! ## Memory (`20_memory.md`) -/

/-- R43, R45, R52: a one-byte write to RAM stores the low byte at the address; a 16-bit write to two different RAM bytes
stores the low byte at the address and the high byte at its successor. Byte and word reads see exactly those, a byte read
through any mirror too; no other byte changes. The low and the high byte are given as numbers. -/
def Obligations.StoredWordReadsBackLittleEndian : Prop :=
  ∀ (s : State) (addr : Addr) (v : Word), s.bus.wf = true → isRam s addr = true →
    ((lowByte v).toNat = v.toNat % 256 ∧ (highByte v).toNat = v.toNat / 256) ∧
    (∃ t, writeW addr .w8 v s = .ok t ∧ writeByte addr (lowByte v) s = .ok t ∧ t = { s with bus := t.bus } ∧
      (∀ b, locate s.cfg b = locate s.cfg addr → readByte b t = .ok (lowByte v, t)) ∧
      (∀ b, apart s b addr = true → peek t b = peek s b)) ∧
    (isRam s (addr + 1) = true → apart s addr (addr + 1) = true →
      ∃ t, writeW addr .w16 v s = .ok t ∧ t = { s with bus := t.bus } ∧ readWord addr t = .ok (v, t) ∧
        (∀ b, locate s.cfg b = locate s.cfg addr → readByte b t = .ok (lowByte v, t)) ∧
        (∀ b, locate s.cfg b = locate s.cfg (addr + 1) → readByte b t = .ok (highByte v, t)) ∧
        (∀ b, apart s b addr = true → apart s b (addr + 1) = true → peek t b = peek s b))

/-- `20_memory.md` R51, R54 and `60_exceptions.md` R321: any access to an address in no region, and any write to a ROM
address, is the fatal error of that name; the failing access stores nothing. The model's own, read from the spec by
inference: that the fault carries the Bus as the step has left it (log entry 7), and that a write to a ROM address past the
end of the image has the reason of a ROM write (log entry 10). -/
def Obligations.UnmappedAccessAndRomWriteAreFatal : Prop :=
  ∀ (s : State) (addr : Addr) (v : Byte),
    (locate s.cfg addr = .unmapped →
      readByte addr s = .error (.fault (.fatal (.unmappedAddress addr) s.bus)) ∧
      writeByte addr v s = .error (.fault (.fatal (.unmappedAddress addr) s.bus))) ∧
    (∀ i, locate s.cfg addr = .rom i →
      writeByte addr v s = .error (.fault (.fatal (.writeToReadOnly addr) s.bus))) ∧
    (s.run = .running → locate s.cfg (mkAddr s.pb s.pc) = .unmapped →
      step s = .fault (.fatal (.unmappedAddress (mkAddr s.pb s.pc)) s.bus))

/-- R55, R57: which byte of the image a ROM address reads, in the Lo and Hi families and their fast variants, for the
region record that holds the address; past the end of the image the address is unmapped. The region record and its
origin are the model's form of the open parameter `REGION_MAP` (log entry 10). -/
def Obligations.RomAddressReadsImageByte : Prop :=
  ∀ (s : State) (r : Region) (addr : Addr),
    s.cfg.regionMap.find? (fun r => regionCovers s.cfg.mapFamily r (bankOf addr).toNat (offsetOf addr).toNat) = some r →
    r.kind = .rom →
    ∀ index : Nat,
      ((s.cfg.mapFamily = .lo ∨ s.cfg.mapFamily = .fastLo) ∧
          index = ((bankOf addr).toNat - r.bankOrigin) * 0x8000 + ((offsetOf addr).toNat - 0x8000) + s.cfg.headerOffset ∨
        (s.cfg.mapFamily = .hi ∨ s.cfg.mapFamily = .fastHi) ∧
          index = ((bankOf addr).toNat - r.bankOrigin) * 0x10000 + (offsetOf addr).toNat + s.cfg.headerOffset) →
      (s.cfg.mapFamily = .lo ∨ s.cfg.mapFamily = .fastLo → 0x8000 ≤ (offsetOf addr).toNat) ∧
      readByte addr s = if index < s.cfg.imageSize then .ok (Memory.read s.bus.rom index, s)
        else .error (.fault (.fatal (.unmappedAddress addr) s.bus))

/-- `20_memory.md` R53, `00_scope.md` R2, D4: a register window is refused by name under `refuse`, the model's reading of
that policy (log entry 11); under `stub` a write is discarded and a read answers some byte, of which nothing is said, and
neither changes any state but the model's own count of free values (log entry 3). `20_memory.md` R40: an address of a device
region is read and written by the two operations of the parameter `BUS`, of which nothing is known; that the device is one
opaque constant, and its state a number, is the model's choice (log entry 19). -/
def Obligations.RegisterWindowFollowsPolicy : Prop :=
  ∀ (s : State) (addr : Addr) (v : Byte),
    (locate s.cfg addr = .registerWindow →
      (s.cfg.regWindowPolicy = .refuse →
        readByte addr s = .error (.refused (.registerWindow addr)) ∧
        writeByte addr v s = .error (.refused (.registerWindow addr))) ∧
      (s.cfg.regWindowPolicy = .stub →
        writeByte addr v s = .ok s ∧ ∃ b n, readByte addr s = .ok (b, { s with draws := n }))) ∧
    (locate s.cfg addr = .device →
      (readByte addr s = match deviceRead s.bus.device addr with
        | some (b, d) => .ok (b, { s with bus := { s.bus with device := d } })
        | none => .error (.fault (.fatal (.unmappedAddress addr) s.bus))) ∧
      (writeByte addr v s = match deviceWrite s.bus.device addr v with
        | .ok d => .ok { s with bus := { s.bus with device := d } }
        | .error .unmapped => .error (.fault (.fatal (.unmappedAddress addr) s.bus))
        | .error .readOnly => .error (.fault (.fatal (.writeToReadOnly addr) s.bus))))

/-! ## Widths, register writes, the status byte (`10_state.md`) -/

/-- R22 to R26: the effective widths, the register values at them, and what `WriteA`, `WriteX`, `WriteY`, `WriteS` and
`SetNZ` write. -/
def Obligations.WidthsAndRegisterWrites : Prop :=
  ∀ (s : State) (v : Word),
    s.wA = (if s.e || s.p.m then .w8 else .w16) ∧ s.wX = (if s.e || s.p.x then .w8 else .w16) ∧
    s.aV.toNat = (if s.e || s.p.m then s.a.toNat % 256 else s.a.toNat) ∧
    s.xV.toNat = s.xNat ∧ s.yV.toNat = s.yNat ∧
    s.writeA v = { s with a := if s.e || s.p.m then mkWord (highByte s.a) (lowByte v) else v } ∧
    s.writeX v = { s with x := if s.e || s.p.x then mkWord (highByte s.x) (lowByte v) else v } ∧
    s.writeY v = { s with y := if s.e || s.p.x then mkWord (highByte s.y) (lowByte v) else v } ∧
    s.writeS v = { s with sp := if s.e then mkWord 0x01 (lowByte v) else v } ∧
    s.setNZ v .w8 = { s with p := { s.p with n := v.getLsbD 7, z := decide (v.toNat % 256 = 0) } } ∧
    s.setNZ v .w16 = { s with p := { s.p with n := v.getLsbD 15, z := decide (v.toNat = 0) } }

/-- R19, R20: the places of the flags in the status byte, and that `SetP` reads the same places, in both modes. -/
def Obligations.StatusByteLayout : Prop :=
  ∀ (s : State) (b : Byte),
    s.p.toByte.toNat = s.p.n.toNat * 128 + s.p.v.toNat * 64 + s.p.m.toNat * 32 + s.p.x.toNat * 16 + s.p.d.toNat * 8 +
      s.p.i.toNat * 4 + s.p.z.toNat * 2 + s.p.c.toNat ∧
    s.setP b = { s with p := { c := b.getLsbD 0, z := b.getLsbD 1, i := b.getLsbD 2, d := b.getLsbD 3,
                               x := b.getLsbD 4, m := b.getLsbD 5, v := b.getLsbD 6, n := b.getLsbD 7 } } ∧
    s.setP s.p.toByte = s ∧ (s.setP b).p.toByte = b

/-! ## Addressing modes (`40_addressing_modes.md`) -/

/-- R96 to R103, R109, R111, R115: the effective addresses that need no pointer, as numbers. Nothing changes. -/
def Obligations.EffectiveAddressesWithoutPointer : Prop :=
  ∀ s : State,
    (∀ a : Word, ∃ ea, effAddr (.abs a) s = .ok (ea, s) ∧ ea.toNat = s.db.toNat * 65536 + a.toNat) ∧
    (∀ a : Word, ∃ ea, effAddr (.abx a) s = .ok (ea, s) ∧
      ea.toNat = (s.db.toNat * 65536 + a.toNat + s.xNat) % 16777216) ∧
    (∀ a : Word, ∃ ea, effAddr (.aby a) s = .ok (ea, s) ∧
      ea.toNat = (s.db.toNat * 65536 + a.toNat + s.yNat) % 16777216) ∧
    (∀ al : Addr, effAddr (.abl al) s = .ok (al, s)) ∧
    (∀ al : Addr, ∃ ea, effAddr (.alx al) s = .ok (ea, s) ∧ ea.toNat = (al.toNat + s.xNat) % 16777216) ∧
    (∀ d : Byte, ∃ ea, effAddr (.dp d) s = .ok (ea, s) ∧ ea.toNat = s.dpNat d.toNat 0) ∧
    (∀ d : Byte, ∃ ea, effAddr (.dpx d) s = .ok (ea, s) ∧ ea.toNat = s.dpNat d.toNat s.xNat) ∧
    (∀ d : Byte, ∃ ea, effAddr (.dpy d) s = .ok (ea, s) ∧ ea.toNat = s.dpNat d.toNat s.yNat) ∧
    (∀ d : Byte, ∃ ea, effAddr (.sr d) s = .ok (ea, s) ∧ ea.toNat = (s.sp.toNat + d.toNat) % 65536)

/-- R104 to R108, R116: the effective addresses through a stored pointer, as numbers: where the pointer is read, which
bank the data is in, and where the index is added. -/
def Obligations.EffectiveAddressesThroughPointer : Prop :=
  ∀ (s : State) (d : Byte) (at_ : Addr) (p : Word) (q : Addr),
    (at_.toNat = s.dpNat d.toNat 0 → storedWord s at_ = some p →
      (∃ ea, effAddr (.dpi d) s = .ok (ea, s) ∧ ea.toNat = s.db.toNat * 65536 + p.toNat) ∧
      (∃ ea, effAddr (.diy d) s = .ok (ea, s) ∧ ea.toNat = (s.db.toNat * 65536 + p.toNat + s.yNat) % 16777216)) ∧
    (at_.toNat = s.dpNat d.toNat s.xNat → storedWord s at_ = some p →
      ∃ ea, effAddr (.dxi d) s = .ok (ea, s) ∧ ea.toNat = s.db.toNat * 65536 + p.toNat) ∧
    (at_.toNat = s.dpNat d.toNat 0 → storedLong s at_ = some q →
      effAddr (.dil d) s = .ok (q, s) ∧
      ∃ ea, effAddr (.dly d) s = .ok (ea, s) ∧ ea.toNat = (q.toNat + s.yNat) % 16777216) ∧
    (at_.toNat = (s.sp.toNat + d.toNat) % 65536 → storedWord s at_ = some p →
      ∃ ea, effAddr (.siy d) s = .ok (ea, s) ∧ ea.toNat = (s.db.toNat * 65536 + p.toNat + s.yNat) % 16777216)

/-- R91, R94 and `20_memory.md` R42: an immediate constant of the width in force is the value loaded; in a memory mode
the value is the stored byte, zero-extended, or the stored little-endian word, at the effective address. -/
def Obligations.LoadReadsOperand : Prop :=
  ∀ (s : State) (w : Width) (k : Imm) (m : MemMode),
    (k.width = w → load (.immM k) w s = .ok (k.value, s) ∧ load (.immX k) w s = .ok (k.value, s)) ∧
    (∀ ea t b, effAddr m s = .ok (ea, t) → peek t ea = some b → load (.mem m) .w8 s = .ok (zextByte b, t)) ∧
    (∀ ea t v, effAddr m s = .ok (ea, t) → storedWord t ea = some v → load (.mem m) .w16 s = .ok (v, t))

/-! ## Loads, stores, transfers (`41_load_store_transfer.md`)

`load o w s = .ok (v, t)` says that the operand is readable and holds `v`; `t` is `s` but for the count of free
values and the device state. -/

/-- R131 to R133: `LDA`, `LDX`, `LDY` in every form. -/
def Obligations.LoadsWriteRegisterAndFlags : Prop :=
  ∀ (i : Instr) (o : DataOperand) (s t : State) (v : Word), i.operand = .data o →
    (i.mnemonic = .lda → load o s.wA s = .ok (v, t) → exec i s = .next ((t.writeA v).setNZ v s.wA)) ∧
    (i.mnemonic = .ldx → load o s.wX s = .ok (v, t) → exec i s = .next ((t.writeX v).setNZ v s.wX)) ∧
    (i.mnemonic = .ldy → load o s.wX s = .ok (v, t) → exec i s = .next ((t.writeY v).setNZ v s.wX))

/-- R134 to R137: `STA`, `STX`, `STY`, `STZ` in every form write the register's value, or zero, at the effective address
at their width, and nothing else. -/
def Obligations.StoresWriteMemory : Prop :=
  ∀ (i : Instr) (m : MemMode) (s u t : State) (ea : Addr), i.operand = .data (.mem m) →
    effAddr m s = .ok (ea, u) →
    (i.mnemonic = .sta → writeW ea s.wA s.aV u = .ok t → exec i s = .next t) ∧
    (i.mnemonic = .stx → writeW ea s.wX s.xV u = .ok t → exec i s = .next t) ∧
    (i.mnemonic = .sty → writeW ea s.wX s.yV u = .ok t → exec i s = .next t) ∧
    (i.mnemonic = .stz → writeW ea s.wA 0 u = .ok t → exec i s = .next t)

/-- R138 to R143: the transfers between `A`, `X` and `Y`: the width is the destination's, `A` offers all its stored bits,
a narrow index is zero-extended. -/
def Obligations.TransfersMoveAtDestinationWidth : Prop :=
  ∀ s : State,
    exec .tax s = .next ((s.writeX s.a).setNZ (truncW s.wX s.a) s.wX) ∧
    exec .tay s = .next ((s.writeY s.a).setNZ (truncW s.wX s.a) s.wX) ∧
    exec .txa s = .next ((s.writeA s.xV).setNZ (truncW s.wA s.xV) s.wA) ∧
    exec .tya s = .next ((s.writeA s.yV).setNZ (truncW s.wA s.yV) s.wA) ∧
    exec .txy s = .next ((s.writeY s.xV).setNZ s.xV s.wX) ∧
    exec .tyx s = .next ((s.writeX s.yV).setNZ s.yV s.wX)

/-- R144 to R150: the transfers with the stack pointer and the direct page register, and `XBA`, field by field. -/
def Obligations.StackTransfersAndExchange : Prop :=
  ∀ s : State,
    exec .tsx s = .next ((s.writeX s.sp).setNZ s.sp s.wX) ∧
    exec .txs s = .next { s with sp := if s.e then mkWord 0x01 (lowByte s.x) else s.xV } ∧
    exec .tcd s = .next { s with d := s.a, p := { s.p with n := s.a.getLsbD 15, z := s.a == 0 } } ∧
    exec .tdc s = .next { s with a := s.d, p := { s.p with n := s.d.getLsbD 15, z := s.d == 0 } } ∧
    exec .tcs s = .next { s with sp := if s.e then mkWord 0x01 (lowByte s.a) else s.a } ∧
    exec .tsc s = .next { s with a := s.sp, p := { s.p with n := s.sp.getLsbD 15, z := s.sp == 0 } } ∧
    exec .xba s = .next { s with a := mkWord (lowByte s.a) (highByte s.a),
                                 p := { s.p with n := s.a.getLsbD 15, z := highByte s.a == 0 } }

/-! ## Arithmetic, logic, compare, shift (`42_arithmetic_logic.md`) -/

/-- R161: the adder: the sum reduced to the width, the carry out of it, and the overflow, by the signs, by the bits and as a
signed sum out of the width's range. -/
def Obligations.AdderCarryAndSignedOverflow : Prop :=
  ∀ (w : Width) (a m : Word) (c : Bool), a.toNat < 2 ^ bitsOf w → m.toNat < 2 ^ bitsOf w →
    (addW a m c w).r.toNat = (a.toNat + m.toNat + c.toNat) % 2 ^ bitsOf w ∧
    ((addW a m c w).cy = true ↔ 2 ^ bitsOf w ≤ a.toNat + m.toNat + c.toNat) ∧
    ((addW a m c w).ov = true ↔
      a.getLsbD (bitsOf w - 1) = m.getLsbD (bitsOf w - 1) ∧
      (addW a m c w).r.getLsbD (bitsOf w - 1) ≠ a.getLsbD (bitsOf w - 1)) ∧
    (addW a m c w).ov = (~~~(a ^^^ m) &&& (a ^^^ (addW a m c w).r)).getLsbD (bitsOf w - 1) ∧
    ((addW a m c w).ov = true ↔
      signedAt w a + signedAt w m + (c.toNat : Int) < -2 ^ (bitsOf w - 1) ∨
      2 ^ (bitsOf w - 1) ≤ signedAt w a + signedAt w m + (c.toNat : Int))

/-- R162, R183: `ADC` in every form, whatever `P.D` is under the default; under `DECIMAL_ARITH = refuse` with `P.D` set it
is refused by name, whatever the operand. That the refusal comes before the operand is read is the model's choice (log
entry 12). -/
def Obligations.AdcAddsWithCarry : Prop :=
  ∀ (i : Instr) (o : DataOperand) (s t : State) (m : Word), i.mnemonic = .adc → i.operand = .data o →
    (s.cfg.decimalArith = .binary ∨ s.p.d = false → load o s.wA s = .ok (m, t) →
      exec i s = .next ({ t with p := { s.p with c := (addW s.aV m s.p.c s.wA).cy, v := (addW s.aV m s.p.c s.wA).ov }
        }.setNZ (addW s.aV m s.p.c s.wA).r s.wA |>.writeA (addW s.aV m s.p.c s.wA).r)) ∧
    (s.cfg.decimalArith = .refuse → s.p.d = true → exec i s = .refused .decimalMode)

/-- R163, R183: `SBC` in every form, in terms of the subtraction: the result is the difference less the borrow, the carry
says that no borrow occurred, and the overflow that the signed difference is out of range. Under `DECIMAL_ARITH = refuse`
with `P.D` set it is refused by name, whatever the operand; that this comes before the operand is read is the model's choice
(log entry 12). -/
def Obligations.SbcSubtractsWithBorrow : Prop :=
  ∀ (i : Instr) (o : DataOperand) (s t : State) (m : Word), i.mnemonic = .sbc → i.operand = .data o →
    (s.cfg.decimalArith = .binary ∨ s.p.d = false → load o s.wA s = .ok (m, t) →
      ∃ (r : Word) (cy ov : Bool),
        r.toNat = (s.aV.toNat + 2 ^ bitsOf s.wA - m.toNat - (1 - s.p.c.toNat)) % 2 ^ bitsOf s.wA ∧
        (cy = true ↔ m.toNat + (1 - s.p.c.toNat) ≤ s.aV.toNat) ∧
        (ov = true ↔
          signedAt s.wA s.aV - signedAt s.wA m - (1 - (s.p.c.toNat : Int)) < -2 ^ (bitsOf s.wA - 1) ∨
          2 ^ (bitsOf s.wA - 1) ≤ signedAt s.wA s.aV - signedAt s.wA m - (1 - (s.p.c.toNat : Int))) ∧
        exec i s = .next (({ t with p := { s.p with c := cy, v := ov } }.setNZ r s.wA).writeA r)) ∧
    (s.cfg.decimalArith = .refuse → s.p.d = true → exec i s = .refused .decimalMode)

/-- R164 to R166: the compares in every form: the carry is the unsigned order, zero is equality, negative is the top bit
of the difference; nothing else changes, the overflow and the incoming carry play no part. -/
def Obligations.ComparesOrderUnsigned : Prop :=
  ∀ (i : Instr) (o : DataOperand) (s t : State) (m reg : Word) (w : Width), i.operand = .data o →
    (i.mnemonic = .cmp ∧ reg = s.aV ∧ w = s.wA ∨ i.mnemonic = .cpx ∧ reg = s.xV ∧ w = s.wX ∨
      i.mnemonic = .cpy ∧ reg = s.yV ∧ w = s.wX) →
    load o w s = .ok (m, t) →
    exec i s = .next { t with p := { s.p with
      c := decide (m.toNat ≤ reg.toNat)
      z := decide (reg = m)
      n := ((reg.toNat + 2 ^ bitsOf w - m.toNat) % 2 ^ bitsOf w).testBit (bitsOf w - 1) } }

/-- R167 to R169: `AND`, `ORA`, `EOR` in every form. -/
def Obligations.LogicCombinesAccumulator : Prop :=
  ∀ (i : Instr) (o : DataOperand) (s t : State) (m : Word), i.operand = .data o → load o s.wA s = .ok (m, t) →
    (i.mnemonic = .and → exec i s = .next ((t.writeA (s.aV &&& m)).setNZ (s.aV &&& m) s.wA)) ∧
    (i.mnemonic = .ora → exec i s = .next ((t.writeA (s.aV ||| m)).setNZ (s.aV ||| m) s.wA)) ∧
    (i.mnemonic = .eor → exec i s = .next ((t.writeA (s.aV ^^^ m)).setNZ (s.aV ^^^ m) s.wA))

/-- R170: `BIT` in every form: zero from the and; the memory forms also take `P.N` and `P.V` from the two top bits of the
operand, the immediate form leaves them; `A` is not written. -/
def Obligations.BitTestsOperand : Prop :=
  ∀ (i : Instr) (s t : State) (m : Word), i.mnemonic = .bit →
    (∀ k, i.operand = .data (.immM k) → load (.immM k) s.wA s = .ok (m, t) →
      exec i s = .next { t with p := { s.p with z := s.aV &&& m == 0 } }) ∧
    (∀ mode, i.operand = .data (.mem mode) → load (.mem mode) s.wA s = .ok (m, t) →
      exec i s = .next { t with p := { s.p with z := s.aV &&& m == 0, n := m.getLsbD (bitsOf s.wA - 1),
                                                v := m.getLsbD (bitsOf s.wA - 2) } })

/-- R171, R172, R177 to R180: what increment, decrement, the shifts and the rotates compute on a value below `2^w`: the
result modulo the width and the new carry. -/
def Obligations.ModifiersComputeModuloWidth : Prop :=
  ∀ (w : Width) (c : Bool) (v : Word), v.toNat < 2 ^ bitsOf w →
    ((incW w c v).1.toNat = (v.toNat + 1) % 2 ^ bitsOf w ∧ (incW w c v).2 = c) ∧
    ((decW w c v).1.toNat = (v.toNat + 2 ^ bitsOf w - 1) % 2 ^ bitsOf w ∧ (decW w c v).2 = c) ∧
    ((aslW w c v).1.toNat = v.toNat * 2 % 2 ^ bitsOf w ∧ (aslW w c v).2 = v.toNat.testBit (bitsOf w - 1)) ∧
    ((lsrW w c v).1.toNat = v.toNat / 2 ∧ (lsrW w c v).2 = v.toNat.testBit 0) ∧
    ((rolW w c v).1.toNat = (v.toNat * 2 + c.toNat) % 2 ^ bitsOf w ∧
      (rolW w c v).2 = v.toNat.testBit (bitsOf w - 1)) ∧
    ((rorW w c v).1.toNat = v.toNat / 2 + c.toNat * 2 ^ (bitsOf w - 1) ∧ (rorW w c v).2 = v.toNat.testBit 0)

/-- R171, R172, R177 to R180, R185: `INC`, `DEC`, `ASL`, `LSR`, `ROL`, `ROR`: the accumulator form works on `A_v`; a memory
form reads and writes at one effective address; carry, negative and zero as the operation says. -/
def Obligations.ModifyInstructionsWriteBack : Prop :=
  ∀ (i : Instr) (f : Width → Bool → Word → Word × Bool) (s : State),
    (i.mnemonic = .inc ∧ f = incW ∨ i.mnemonic = .dec ∧ f = decW ∨ i.mnemonic = .asl ∧ f = aslW ∨
      i.mnemonic = .lsr ∧ f = lsrW ∨ i.mnemonic = .rol ∧ f = rolW ∨ i.mnemonic = .ror ∧ f = rorW) →
    (i.operand = .acc →
      exec i s = .next (({ s with p := { s.p with c := (f s.wA s.p.c s.aV).2 } }.setNZ (f s.wA s.p.c s.aV).1 s.wA).writeA
        (f s.wA s.p.c s.aV).1)) ∧
    (∀ (m : MemMode) (ea : Addr) (t u x : State) (v : Word), i.operand = .data (.mem m) →
      effAddr m s = .ok (ea, t) → readW ea s.wA t = .ok (v, u) → writeW ea s.wA (f s.wA s.p.c v).1 u = .ok x →
      exec i s = .next ({ x with p := { s.p with c := (f s.wA s.p.c v).2 } }.setNZ (f s.wA s.p.c v).1 s.wA))

/-- R173 to R176: `INX`, `INY`, `DEX`, `DEY` at the index width, with no carry into a hidden high byte. -/
def Obligations.IndexIncrementAndDecrement : Prop :=
  ∀ s : State,
    exec .inx s = .next ((s.writeX (s.x + 1)).setNZ (truncW s.wX (s.x + 1)) s.wX) ∧
    exec .iny s = .next ((s.writeY (s.y + 1)).setNZ (truncW s.wX (s.y + 1)) s.wX) ∧
    exec .dex s = .next ((s.writeX (s.x - 1)).setNZ (truncW s.wX (s.x - 1)) s.wX) ∧
    exec .dey s = .next ((s.writeY (s.y - 1)).setNZ (truncW s.wX (s.y - 1)) s.wX)

/-- R181, R182: `TSB` and `TRB` in every form: zero from the and with the old value, the bits of the accumulator set or
cleared in memory; no other flag and no register. -/
def Obligations.TestAndSetOrReset : Prop :=
  ∀ (i : Instr) (m : MemMode) (ea : Addr) (s t u x : State) (v : Word), i.operand = .data (.mem m) →
    effAddr m s = .ok (ea, t) → readW ea s.wA t = .ok (v, u) →
    (i.mnemonic = .tsb → writeW ea s.wA (v ||| s.aV) u = .ok x →
      exec i s = .next { x with p := { s.p with z := s.aV &&& v == 0 } }) ∧
    (i.mnemonic = .trb → writeW ea s.wA (v &&& ~~~s.aV) u = .ok x →
      exec i s = .next { x with p := { s.p with z := s.aV &&& v == 0 } })

/-! ## Control transfer (`43_control_transfer.md`)

In `exec` the state's `PC` is the post-operand counter. -/

/-- R200 to R210: the branches: taken on their condition, the signed displacement added to the post-operand counter modulo
2^16, the bank and everything else unchanged. -/
def Obligations.BranchesAddDisplacement : Prop :=
  ∀ (disp : Byte) (long : Word) (s : State),
    exec (.bpl disp) s = .next (if s.p.n = false then { s with pc := s.pc + disp.signExtend 16 } else s) ∧
    exec (.bmi disp) s = .next (if s.p.n = true then { s with pc := s.pc + disp.signExtend 16 } else s) ∧
    exec (.bvc disp) s = .next (if s.p.v = false then { s with pc := s.pc + disp.signExtend 16 } else s) ∧
    exec (.bvs disp) s = .next (if s.p.v = true then { s with pc := s.pc + disp.signExtend 16 } else s) ∧
    exec (.bcc disp) s = .next (if s.p.c = false then { s with pc := s.pc + disp.signExtend 16 } else s) ∧
    exec (.bcs disp) s = .next (if s.p.c = true then { s with pc := s.pc + disp.signExtend 16 } else s) ∧
    exec (.bne disp) s = .next (if s.p.z = false then { s with pc := s.pc + disp.signExtend 16 } else s) ∧
    exec (.beq disp) s = .next (if s.p.z = true then { s with pc := s.pc + disp.signExtend 16 } else s) ∧
    exec (.bra disp) s = .next { s with pc := s.pc + disp.signExtend 16 } ∧
    exec (.brl long) s = .next { s with pc := s.pc + long }

/-- R211, R212 and `40_addressing_modes.md` R112 to R114: every form of `JMP` and `JML`: the operand is the target, or the
pointer is read from bank 0, or from bank `PB` with the index added inside the bank. -/
def Obligations.JumpsGoToTarget : Prop :=
  ∀ (s : State) (a p : Word) (t : Addr),
    exec (.jmpAbsPb a) s = .next { s with pc := a } ∧
    (storedWord s (mkAddr 0x00 a) = some p → exec (.jmpAbi a) s = .next { s with pc := p }) ∧
    (storedWord s (mkAddr s.pb (a + s.xV)) = some p → exec (.jmpAxi a) s = .next { s with pc := p }) ∧
    exec (.jmlAblPc t) s = .next { s with pc := offsetOf t, pb := bankOf t } ∧
    (storedLong s (mkAddr 0x00 a) = some t → exec (.jmlAil a) s = .next { s with pc := offsetOf t, pb := bankOf t })

/-- R213, R214: `JSR` and `JSL`: the address of the last operand byte is pushed, `JSL` pushes the bank first, and the
pointer of `JSR (a,X)` is read after the push. -/
def Obligations.CallsPushReturnAddress : Prop :=
  ∀ (s t u : State) (a p : Word) (target : Addr),
    (push16 (s.pc - 1) s = .ok t → exec (.jsrAbsPb a) s = .next { t with pc := a }) ∧
    (push16 (s.pc - 1) s = .ok t → storedWord t (mkAddr s.pb (a + s.xV)) = some p →
      exec (.jsrAxi a) s = .next { t with pc := p }) ∧
    (push8 s.pb s = .ok t → push16 (s.pc - 1) t = .ok u →
      exec (.jsl target) s = .next { u with pc := offsetOf target, pb := bankOf target })

/-- R215, R216: `RTS` and `RTL` go one past the pulled word; `RTL` then pulls the bank, without a carry into it. -/
def Obligations.ReturnsGoPastPulledAddress : Prop :=
  ∀ (s : State) (lo hi bank : Byte), peek s (mkAddr 0x00 (pullSlot s 1)) = some lo →
    peek s (mkAddr 0x00 (pullSlot s 2)) = some hi →
    exec .rts s = .next { s with pc := mkWord hi lo + 1, sp := pullSlot s 2 } ∧
    (peek s (mkAddr 0x00 (pullSlot s 3)) = some bank →
      exec .rtl s = .next { s with pc := mkWord hi lo + 1, pb := bank, sp := pullSlot s 3 })

/-- R217: `JSR`, in both its forms, then `RTS`, and `JSL` then `RTL`, come back to the instruction after the call with `S`
restored, when the stack bytes are in RAM, from every state `r` in which the subroutine has left `S`, `E` and the pushed
bytes as it found them. `RTS` returns in the bank of `r`; `RTL` in the bank of the call. Nothing else of `r` changes. -/
def Obligations.CallThenReturnComesBack : Prop :=
  ∀ (s : State) (a : Word) (target : Addr), s.bus.wf = true → s.stackPageOk = true →
    (stackRoom s 2 → ∃ t, exec (.jsrAbsPb a) s = .next t ∧
      ∀ r : State, r.sp = t.sp → r.e = t.e →
        (∀ k, k < 2 → peek r (bank0 (pushSlot s k)) = peek t (bank0 (pushSlot s k))) →
        exec .rts r = .next { r with pc := s.pc, sp := s.sp }) ∧
    (stackRoom s 2 → ∀ t, exec (.jsrAxi a) s = .next t →
      ∀ r : State, r.sp = t.sp → r.e = t.e →
        (∀ k, k < 2 → peek r (bank0 (pushSlot s k)) = peek t (bank0 (pushSlot s k))) →
        exec .rts r = .next { r with pc := s.pc, sp := s.sp }) ∧
    (stackRoom s 3 → ∃ t, exec (.jsl target) s = .next t ∧
      ∀ r : State, r.sp = t.sp → r.e = t.e →
        (∀ k, k < 3 → peek r (bank0 (pushSlot s k)) = peek t (bank0 (pushSlot s k))) →
        exec .rtl r = .next { r with pc := s.pc, pb := s.pb, sp := s.sp })

/-! ## Stack (`44_stack.md`) -/

/-- `40_addressing_modes.md` R118 to R121: the four primitives; a byte and a word pushed to RAM lie at `S` and below it,
high byte first, and a pull gives them back and restores `S`, in both modes. -/
def Obligations.PushThenPullRoundTrip : Prop :=
  ∀ (s : State) (b : Byte) (v : Word),
    (∀ t, writeByte (mkAddr 0x00 s.sp) b s = .ok t → push8 b s = .ok (t.writeS (s.sp - 1))) ∧
    (∀ t, readByte (mkAddr 0x00 (s.writeS (s.sp + 1)).sp) (s.writeS (s.sp + 1)) = .ok (b, t) → pull8 s = .ok (b, t)) ∧
    (∀ t u, push8 (highByte v) s = .ok t → push8 (lowByte v) t = .ok u → push16 v s = .ok u) ∧
    (∀ lo hi t u, pull8 s = .ok (lo, t) → pull8 t = .ok (hi, u) →
      pull16 s = .ok (mkWord hi lo, u) ∧ (mkWord hi lo).toNat = hi.toNat * 256 + lo.toNat) ∧
    (s.e = false → pushSlot s 1 = s.sp - 1 ∧ pushSlot s 2 = s.sp - 2) ∧
    (s.bus.wf = true → s.stackPageOk = true → stackRoom s 1 →
      ∃ t u, push8 b s = .ok t ∧ t = { s with bus := t.bus, sp := pushSlot s 1 } ∧
        peek t (mkAddr 0x00 s.sp) = some b ∧ pull8 t = .ok (b, u) ∧ u.sp = s.sp) ∧
    (s.bus.wf = true → s.stackPageOk = true → stackRoom s 2 →
      ∃ t u, push16 v s = .ok t ∧ t = { s with bus := t.bus, sp := pushSlot s 2 } ∧
        peek t (mkAddr 0x00 s.sp) = some (highByte v) ∧ peek t (mkAddr 0x00 (pushSlot s 1)) = some (lowByte v) ∧
        pull16 t = .ok (v, u) ∧ u.sp = s.sp)

/-- R231 to R237: each push instruction pushes its register at its width, and changes nothing else. -/
def Obligations.PushInstructionsPushRegister : Prop :=
  ∀ s t : State,
    ((s.e || s.p.m) = true → push8 (lowByte s.a) s = .ok t → exec .pha s = .next t) ∧
    ((s.e || s.p.m) = false → push16 s.a s = .ok t → exec .pha s = .next t) ∧
    ((s.e || s.p.x) = true → push8 (lowByte s.x) s = .ok t → exec .phx s = .next t) ∧
    ((s.e || s.p.x) = false → push16 s.x s = .ok t → exec .phx s = .next t) ∧
    ((s.e || s.p.x) = true → push8 (lowByte s.y) s = .ok t → exec .phy s = .next t) ∧
    ((s.e || s.p.x) = false → push16 s.y s = .ok t → exec .phy s = .next t) ∧
    (push8 s.p.toByte s = .ok t → exec .php s = .next t) ∧
    (push8 s.db s = .ok t → exec .phb s = .next t) ∧
    (push16 s.d s = .ok t → exec .phd s = .next t) ∧
    (push8 s.pb s = .ok t → exec .phk s = .next t)

/-- R238 to R243, `40_addressing_modes.md` R122: each pull instruction pulls one byte or a word by its width, writes its
register (at width 8 the high byte is kept) and the flags; `PLP` replaces all eight flags in both modes. -/
def Obligations.PullInstructionsWriteRegister : Prop :=
  ∀ (s t : State) (b : Byte) (v : Word),
    (pull8 s = .ok (b, t) →
      ((s.e || s.p.m) = true → exec .pla s = .next
        { t with a := mkWord (highByte s.a) b, p := { s.p with n := b.getLsbD 7, z := b == 0 } }) ∧
      ((s.e || s.p.x) = true → exec .plx s = .next
        { t with x := mkWord (highByte s.x) b, p := { s.p with n := b.getLsbD 7, z := b == 0 } }) ∧
      ((s.e || s.p.x) = true → exec .ply s = .next
        { t with y := mkWord (highByte s.y) b, p := { s.p with n := b.getLsbD 7, z := b == 0 } }) ∧
      exec .plp s = .next { t with p := Flags.ofByte b } ∧
      exec .plb s = .next { t with db := b, p := { s.p with n := b.getLsbD 7, z := b == 0 } }) ∧
    (pull16 s = .ok (v, t) →
      ((s.e || s.p.m) = false → exec .pla s = .next
        { t with a := v, p := { s.p with n := v.getLsbD 15, z := v == 0 } }) ∧
      ((s.e || s.p.x) = false → exec .plx s = .next
        { t with x := v, p := { s.p with n := v.getLsbD 15, z := v == 0 } }) ∧
      ((s.e || s.p.x) = false → exec .ply s = .next
        { t with y := v, p := { s.p with n := v.getLsbD 15, z := v == 0 } }) ∧
      exec .pld s = .next { t with d := v, p := { s.p with n := v.getLsbD 15, z := v == 0 } })

/-- R245 to R247: `PEA` pushes its operand, `PEI` the stored word at the direct-page location, `PER` the post-operand
counter plus the displacement. -/
def Obligations.PushEffectiveAddress : Prop :=
  ∀ (s t : State) (v : Word) (d : Byte) (at_ : Addr),
    (push16 v s = .ok t → exec (.pea v) s = .next t) ∧
    (at_.toNat = s.dpNat d.toNat 0 → storedWord s at_ = some v → push16 v s = .ok t → exec (.pei d) s = .next t) ∧
    (push16 (s.pc + v) s = .ok t → exec (.per v) s = .next t)

/-! ## Status and mode (`45_status_and_mode.md`) -/

/-- R260 to R266: each single-flag instruction writes exactly its flag. -/
def Obligations.FlagInstructionsWriteOneFlag : Prop :=
  ∀ s : State,
    exec .clc s = .next { s with p := { s.p with c := false } } ∧
    exec .sec s = .next { s with p := { s.p with c := true } } ∧
    exec .cli s = .next { s with p := { s.p with i := false } } ∧
    exec .sei s = .next { s with p := { s.p with i := true } } ∧
    exec .cld s = .next { s with p := { s.p with d := false } } ∧
    exec .sed s = .next { s with p := { s.p with d := true } } ∧
    exec .clv s = .next { s with p := { s.p with v := false } }

/-- R267, R268: `REP` clears and `SEP` sets every flag whose bit of the constant is 1, and leaves the others, in both
modes; registers keep their stored bytes. -/
def Obligations.RepClearsAndSepSetsFlags : Prop :=
  ∀ (k : Byte) (s : State),
    exec (.rep k) s = .next { s with p :=
      { c := s.p.c && !k.getLsbD 0, z := s.p.z && !k.getLsbD 1, i := s.p.i && !k.getLsbD 2, d := s.p.d && !k.getLsbD 3,
        x := s.p.x && !k.getLsbD 4, m := s.p.m && !k.getLsbD 5, v := s.p.v && !k.getLsbD 6,
        n := s.p.n && !k.getLsbD 7 } } ∧
    exec (.sep k) s = .next { s with p :=
      { c := s.p.c || k.getLsbD 0, z := s.p.z || k.getLsbD 1, i := s.p.i || k.getLsbD 2, d := s.p.d || k.getLsbD 3,
        x := s.p.x || k.getLsbD 4, m := s.p.m || k.getLsbD 5, v := s.p.v || k.getLsbD 6, n := s.p.n || k.getLsbD 7 } }

/-- R270: `XCE` exchanges the carry and `E`; entering Emulation mode forces the high byte of `S` and nothing else. -/
def Obligations.XceExchangesCarryAndEmulation : Prop :=
  ∀ s : State, exec .xce s = .next { s with
    p := { s.p with c := s.e }, e := s.p.c, sp := if s.p.c then mkWord 0x01 (lowByte s.sp) else s.sp }

/-- R271, R273 and `47_system.md` R293, R294: `NOP` changes nothing; `WDM` is the fatal decode error, over the Bus as the step
has left it (log entry 7, the model's reading), or a no-operation, by its parameter; `WAI` and `STP` change `run` alone. -/
def Obligations.NopWdmWaiStp : Prop :=
  ∀ (s : State) (signature : Option Byte),
    exec .nop s = .next s ∧
    (s.cfg.wdmBehaviour = .fatal → exec (.wdm signature) s = .fault (.fatal (.decodeError 0x42) s.bus)) ∧
    (s.cfg.wdmBehaviour = .nop2 → exec (.wdm signature) s = .next s) ∧
    exec .wai s = .next { s with run := .waiting } ∧
    exec .stp s = .next { s with run := .stopped }

/-! ## Block move (`46_block_move.md`) -/

/-- R280, R281: one step of `MVN` and `MVP` moves one byte, moves both indices at the index width, counts `A` down at all
16 bits, sets the data bank, and returns to the instruction unless the count has run out; no flag changes. -/
def Obligations.BlockMoveMovesOneByte : Prop :=
  ∀ (dst src b : Byte) (s t u : State), readByte (mkAddr src s.xV) s = .ok (b, t) →
    writeByte (mkAddr dst s.yV) b t = .ok u →
    exec (.mvn dst src) s = .next { (u.writeX (s.x + 1)).writeY (s.y + 1) with
      a := s.a - 1, db := dst, pc := if s.a = 0x0000 then s.pc else s.pc - 3 } ∧
    exec (.mvp dst src) s = .next { (u.writeX (s.x - 1)).writeY (s.y - 1) with
      a := s.a - 1, db := dst, pc := if s.a = 0x0000 then s.pc else s.pc - 3 }

/-! ## Interrupts (`60_exceptions.md`, `47_system.md`) -/

/-- R303, R305, R306: the entry sequence of every interrupt kind, with the frame in RAM and the vector stored outside it:
which bytes lie where, which state is changed, and that nothing else is. -/
def Obligations.InterruptEntrySavesAndVectors : Prop :=
  ∀ (kind : InterruptKind) (retpc target : Word) (s : State), s.bus.wf = true →
    stackRoom s (if s.e then 3 else 4) →
    storedWord s (vectorOf s.cfg.vectors kind s.e) = some target →
    (∀ k, k < (if s.e then 3 else 4) →
      apart s (vectorOf s.cfg.vectors kind s.e) (bank0 (pushSlot s k)) = true ∧
      apart s (vectorOf s.cfg.vectors kind s.e + 1) (bank0 (pushSlot s k)) = true) →
    ∃ t, interruptEntry kind retpc s = .ok t ∧
      t = { s with bus := t.bus, sp := pushSlot s (if s.e then 3 else 4), pc := target,
                   pb := if s.e then s.pb else 0x00, p := { s.p with i := true, d := false } } ∧
      (s.e = false →
        peek t (bank0 (pushSlot s 0)) = some s.pb ∧ peek t (bank0 (pushSlot s 1)) = some (highByte retpc) ∧
        peek t (bank0 (pushSlot s 2)) = some (lowByte retpc) ∧ peek t (bank0 (pushSlot s 3)) = some s.p.toByte) ∧
      (s.e = true →
        peek t (bank0 (pushSlot s 0)) = some (highByte retpc) ∧ peek t (bank0 (pushSlot s 1)) = some (lowByte retpc) ∧
        peek t (bank0 (pushSlot s 2)) = some (match kind with
          | .brk => s.p.toByte ||| 0x10
          | .cop => s.p.toByte
          | .irq | .nmi | .abort => s.p.toByte &&& 0xEF)) ∧
      (∀ b, (∀ k, k < (if s.e then 3 else 4) → apart s b (bank0 (pushSlot s k)) = true) → peek t b = peek s b)

/-- R290, R291: `BRK` and `COP` take the entry sequence of their kind with the post-operand counter, whatever the signature
byte. `60_exceptions.md` R303: the vector of every interrupt kind in each mode, and R2's default addresses. -/
def Obligations.BrkAndCopTakeInterruptEntry : Prop :=
  (∀ (signature : Byte) (s t : State),
    (interruptEntry .brk s.pc s = .ok t → exec (.brk signature) s = .next t) ∧
    (interruptEntry .cop s.pc s = .ok t → exec (.cop signature) s = .next t)) ∧
  (∀ v : Vectors,
    vectorOf v .cop false = v.nativeCop ∧ vectorOf v .cop true = v.emuCop ∧
    vectorOf v .brk false = v.nativeBrk ∧ vectorOf v .brk true = v.emuIrqBrk ∧
    vectorOf v .abort false = v.nativeAbort ∧ vectorOf v .abort true = v.emuAbort ∧
    vectorOf v .nmi false = v.nativeNmi ∧ vectorOf v .nmi true = v.emuNmi ∧
    vectorOf v .irq false = v.nativeIrq ∧ vectorOf v .irq true = v.emuIrqBrk) ∧
  Config.default.vectors =
    { reset := 0x00FFFC, nativeCop := 0x00FFE4, nativeBrk := 0x00FFE6, nativeAbort := 0x00FFE8, nativeNmi := 0x00FFEA,
      nativeIrq := 0x00FFEE, emuCop := 0x00FFF4, emuAbort := 0x00FFF8, emuNmi := 0x00FFFA, emuIrqBrk := 0x00FFFE }

/-- R292: `RTI` pulls the status, then the counter as it is, then in Native mode the bank. -/
def Obligations.RtiPullsStatusCounterBank : Prop :=
  ∀ (s : State) (b lo hi bank : Byte), peek s (mkAddr 0x00 (pullSlot s 1)) = some b →
    peek s (mkAddr 0x00 (pullSlot s 2)) = some lo → peek s (mkAddr 0x00 (pullSlot s 3)) = some hi →
    (s.e = true → exec .rti s = .next { s with p := Flags.ofByte b, pc := mkWord hi lo, sp := pullSlot s 3 }) ∧
    (s.e = false → peek s (mkAddr 0x00 (pullSlot s 4)) = some bank →
      exec .rti s = .next { s with p := Flags.ofByte b, pc := mkWord hi lo, pb := bank, sp := pullSlot s 4 })

/-- R295 (a), R310: after an entry, `RTI` from every state `r` in which the handler has left `S`, `E` and the frame as the
entry left them restores the counter, `S`, the bank, and every flag of the byte that was pushed, and changes nothing else.
The entry leaves `A`, `X`, `Y`, `D`, `DB` and `E`. In Emulation mode the entry leaves the bank too, and neither pushes nor
pulls it: `RTI` then returns in the bank of `r`. There the pushed byte has bit 4 forced for `BRK` and hardware interrupts
(R305), and `RTI` stores it as pulled (R292): the clauses on the flags follow R292 where R295 (a) says in short that all
flags come back, the model's reading (log entry 17). -/
def Obligations.EntryThenReturnRestores : Prop :=
  ∀ (kind : InterruptKind) (retpc : Word) (s t : State), s.bus.wf = true → s.stackPageOk = true →
    stackRoom s (if s.e then 3 else 4) → interruptEntry kind retpc s = .ok t →
    (t.a = s.a ∧ t.x = s.x ∧ t.y = s.y ∧ t.d = s.d ∧ t.db = s.db ∧ t.e = s.e ∧ (s.e = true → t.pb = s.pb)) ∧
    (∀ r : State, r.sp = t.sp → r.e = t.e →
      (∀ k, k < (if s.e then 3 else 4) → peek r (bank0 (pushSlot s k)) = peek t (bank0 (pushSlot s k))) →
      ∃ p, exec .rti r = .next { r with pc := retpc, pb := if s.e then r.pb else s.pb, sp := s.sp, p := p } ∧
        (s.e = false ∨ kind = .cop → p = s.p) ∧
        (s.e = true → kind = .brk → p = { s.p with x := true }) ∧
        (s.e = true → kind = .irq ∨ kind = .nmi ∨ kind = .abort → p = { s.p with x := false }))

/-- R318: the host's `interrupt(kind)`: ignored in Stopped and Halted; a masked `IRQ` only ends a wait; otherwise the
entry sequence from Running with the current counter. R311, R320: a fatal error of the entry is recorded in `run`, over the
Bus as the entry has left it (log entry 7, the model's reading). Without `INTERRUPT_INPUTS` the operation does not exist;
that the model then refuses it by name is the model's reading (log entry 18). -/
def Obligations.HostInterruptFollowsMask : Prop :=
  ∀ s : State,
    (s.cfg.interruptInputs = false → ∀ kind, interrupt kind s = .refused .noInterruptInputs) ∧
    (s.cfg.interruptInputs = true →
      (s.run = .stopped ∨ (∃ reason, s.run = .halted reason) → ∀ kind, interrupt kind s = .next s) ∧
      (s.run = .running ∨ s.run = .waiting →
        (s.p.i = true → interrupt .irq s = .next { s with run := .running }) ∧
        (∀ kind, kind = .nmi ∨ s.p.i = false →
          (∀ t, interruptEntry kind.kind s.pc { s with run := .running } = .ok t → interrupt kind s = .next t) ∧
          (∀ reason bus, interruptEntry kind.kind s.pc { s with run := .running } =
              .error (.fault (.fatal reason bus)) →
            ∃ t, interrupt kind s = .next t ∧ t.run = .halted reason ∧ t.bus = bus)) ∧
        HardwareInterrupt.nmi.kind = .nmi ∧ HardwareInterrupt.irq.kind = .irq))

/-! ## The whole machine -/

/-- R13 to R16, R21, R31, R295 (c): which instructions may change each register, `E` and `run`; the parameters are never
changed. -/
def Obligations.OnlyListedInstructionsWriteRegisters : Prop :=
  ∀ (i : Instr) (s t : State), exec i s = .next t →
    (t.a ≠ s.a → i.mnemonic ∈ [.lda, .adc, .sbc, .and, .ora, .eor, .pla, .txa, .tya, .tdc, .tsc, .xba, .mvn, .mvp] ∨
      i.operand = .acc) ∧
    (t.x ≠ s.x → i.mnemonic ∈ [.ldx, .inx, .dex, .plx, .tax, .tyx, .tsx, .mvn, .mvp]) ∧
    (t.y ≠ s.y → i.mnemonic ∈ [.ldy, .iny, .dey, .ply, .tay, .txy, .mvn, .mvp]) ∧
    (t.sp ≠ s.sp → i.mnemonic ∈ [.pha, .phx, .phy, .php, .phb, .phd, .phk, .pla, .plx, .ply, .plp, .plb, .pld, .pea,
      .pei, .per, .jsr, .jsl, .rts, .rtl, .brk, .cop, .rti, .txs, .tcs, .xce]) ∧
    (t.d ≠ s.d → i.mnemonic ∈ [.tcd, .pld]) ∧
    (t.db ≠ s.db → i.mnemonic ∈ [.plb, .mvn, .mvp]) ∧
    (t.pb ≠ s.pb → i.mnemonic ∈ [.jml, .jsl, .rtl] ∨ (i.mnemonic ∈ [.rti, .brk, .cop] ∧ s.e = false)) ∧
    (t.pc ≠ s.pc → i.mnemonic ∈ [.bpl, .bmi, .bvc, .bvs, .bcc, .bcs, .bne, .beq, .bra, .brl, .jmp, .jml, .jsr, .jsl,
      .rts, .rtl, .rti, .brk, .cop, .mvn, .mvp]) ∧
    (t.e ≠ s.e → i.mnemonic = .xce) ∧
    (t.run ≠ s.run → i.mnemonic ∈ [.wai, .stp]) ∧
    t.cfg = s.cfg

/-- R27: which instructions may change each flag. -/
def Obligations.OnlyListedInstructionsWriteFlags : Prop :=
  ∀ (i : Instr) (s t : State), exec i s = .next t →
    (t.p.c ≠ s.p.c → i.mnemonic ∈ [.adc, .sbc, .cmp, .cpx, .cpy, .asl, .lsr, .rol, .ror, .clc, .sec, .xce, .rep, .sep,
      .plp, .rti]) ∧
    (t.p.i ≠ s.p.i → i.mnemonic ∈ [.brk, .cop, .sei, .cli, .rep, .sep, .plp, .rti]) ∧
    (t.p.d ≠ s.p.d → i.mnemonic ∈ [.brk, .cop, .sed, .cld, .rep, .sep, .plp, .rti]) ∧
    (t.p.x ≠ s.p.x → i.mnemonic ∈ [.rep, .sep, .plp, .rti]) ∧
    (t.p.m ≠ s.p.m → i.mnemonic ∈ [.rep, .sep, .plp, .rti]) ∧
    (t.p.v ≠ s.p.v → i.mnemonic ∈ [.adc, .sbc, .bit, .clv, .rep, .sep, .plp, .rti]) ∧
    (t.p.n ≠ s.p.n ∨ t.p.z ≠ s.p.z → i.mnemonic ∉ [.sta, .stx, .sty, .stz, .txs, .tcs, .bpl, .bmi, .bvc, .bvs, .bcc,
      .bcs, .bne, .beq, .bra, .brl, .jmp, .jml, .jsr, .jsl, .rts, .rtl, .pha, .phx, .phy, .php, .phb, .phd, .phk, .pea,
      .pei, .per, .mvn, .mvp, .nop, .wdm, .wai, .stp, .brk, .cop, .clc, .sec, .cli, .sei, .cld, .sed, .clv, .xce]) ∧
    (t.p.n ≠ s.p.n → i.mnemonic ∉ [.tsb, .trb])

/-- The frame of memory, for every instruction: an instruction that stores nothing leaves every byte; a store at an
effective address leaves every byte but the one or two it stores there; a pushing instruction every byte but the slots
it pushes to; a block move every byte but its destination. The image is never written (`20_memory.md` R54). -/
def Obligations.OnlyStoredBytesChange : Prop :=
  ∀ (i : Instr) (s t : State), exec i s = .next t →
    t.bus.rom = s.bus.rom ∧
    (∀ (m : MemMode) (w : Width) (ea : Addr) (u : State), i.operand = .data (.mem m) → storedWidth i s = some w →
      effAddr m s = .ok (ea, u) →
      ∀ b, apart s b ea = true → (w = .w16 → apart s b (ea + 1) = true) → peek t b = peek s b) ∧
    ((∀ m, i.operand ≠ .data (.mem m)) ∨ storedWidth i s = none → i.mnemonic ∉ [.mvn, .mvp] →
      ∀ b, (∀ k, k < pushedBytes i s → apart s b (bank0 (pushSlot s k)) = true) → peek t b = peek s b) ∧
    (∀ dst src, i.operand = .blk dst src → ∀ b, apart s b (mkAddr dst s.yV) = true → peek t b = peek s b)

/-- `10_state.md` R10, R11: while a register's effective width is 8, no instruction changes its hidden high byte, but for
the accumulator the whole-register moves `XBA`, `TDC`, `TSC` and the block moves. -/
def Obligations.HiddenHighBytesAreKept : Prop :=
  ∀ (i : Instr) (s t : State), exec i s = .next t →
    ((s.e || s.p.m) = true → i.mnemonic ∉ [.xba, .tdc, .tsc, .mvn, .mvp] → highByte t.a = highByte s.a) ∧
    ((s.e || s.p.x) = true → highByte t.x = highByte s.x ∧ highByte t.y = highByte s.y)

/-- `10_state.md` R12, R21, `00_scope.md` R2, `20_memory.md` R54: every step keeps the Emulation invariant of `S` and the
canonical form of memory, the model's own (log entry 9), and never changes the parameters or the cartridge image. So do
the host's step with its fatal errors recorded (`60_exceptions.md` R320, the registers being the model's choice, log entry
8), `interrupt` (R318), a later reset (`70_reset_and_hazards.md` R341), every write of a field (R34, read as in log entry 16)
and of the device state; a byte the host changes (`20_memory.md` R61) may be one of the image. -/
def Obligations.StepKeepsInvariant : Prop :=
  ∀ s t : State, s.inv = true →
    (step s = .next t → t.inv = true ∧ t.cfg = s.cfg ∧ t.bus.rom = s.bus.rom) ∧
    (hostStep s = .next t → t.inv = true ∧ t.cfg = s.cfg ∧ t.bus.rom = s.bus.rom) ∧
    (∀ kind, interrupt kind s = .next t → t.inv = true ∧ t.cfg = s.cfg ∧ t.bus.rom = s.bus.rom) ∧
    (hostReset s = .next t → t.inv = true ∧ t.cfg = s.cfg ∧ t.bus.rom = s.bus.rom) ∧
    (∀ w, t = hostWrite w s → t.inv = true ∧ t.cfg = s.cfg ∧ t.bus.rom = s.bus.rom) ∧
    (∀ d, t = hostDevice d s → t.inv = true ∧ t.cfg = s.cfg ∧ t.bus.rom = s.bus.rom) ∧
    (∀ addr v, t = poke s addr v → t.inv = true ∧ t.cfg = s.cfg)

/-- `60_exceptions.md` R301, R321, `20_memory.md` R53, R54: an instruction ends in no fatal error but an unmapped address,
only where the address is in no region, past the end of the image, or the device raises it; a write to ROM, only where the
address is ROM or the device raises it; and the decode error of `WDM` under `WDM_BEHAVIOUR = fatal`. It is refused only at a
register window under `refuse` or, for `ADC` and `SBC`, in decimal mode under `DECIMAL_ARITH = refuse`, the model's readings
(log entries 11 and 12). The same of a step, whose fetch ends in no stop but an unmapped address or a refusing window: every
other stop is that of an instruction it has fetched. R320, R322: the host's step records the fatal error of a step in `run`,
with the Bus the step has left (log entries 7 and 8); nothing is said of the registers. -/
def Obligations.OnlyListedFatalErrors : Prop :=
  (∀ (i : Instr) (s : State),
    (∀ reason bus, exec i s = .fault (.fatal reason bus) →
      (∃ addr, reason = .unmappedAddress addr ∧ raisesUnmapped s.cfg addr) ∨
      (∃ addr, reason = .writeToReadOnly addr ∧ raisesReadOnly s.cfg addr) ∨
      (reason = .decodeError 0x42 ∧ i.mnemonic = .wdm ∧ s.cfg.wdmBehaviour = .fatal)) ∧
    (∀ r, exec i s = .refused r →
      (∃ addr, r = .registerWindow addr ∧ locate s.cfg addr = .registerWindow ∧ s.cfg.regWindowPolicy = .refuse) ∨
      (r = .decimalMode ∧ i.mnemonic ∈ [.adc, .sbc] ∧ s.cfg.decimalArith = .refuse ∧ s.p.d = true))) ∧
  (∀ s : State,
    (∀ reason bus, step s = .fault (.fatal reason bus) →
      (∃ addr, reason = .unmappedAddress addr ∧ raisesUnmapped s.cfg addr) ∨
      (∃ i u, fetchInstr s = .ok (i, u) ∧
        ((∃ addr, reason = .writeToReadOnly addr ∧ raisesReadOnly s.cfg addr) ∨
          (reason = .decodeError 0x42 ∧ i.mnemonic = .wdm ∧ s.cfg.wdmBehaviour = .fatal)))) ∧
    (∀ r, step s = .refused r →
      (∃ addr, r = .registerWindow addr ∧ locate s.cfg addr = .registerWindow ∧ s.cfg.regWindowPolicy = .refuse) ∨
      (∃ i u, fetchInstr s = .ok (i, u) ∧
        r = .decimalMode ∧ i.mnemonic ∈ [.adc, .sbc] ∧ s.cfg.decimalArith = .refuse ∧ s.p.d = true)) ∧
    (∀ t, step s = .next t → hostStep s = .next t) ∧
    (∀ reason bus, step s = .fault (.fatal reason bus) →
      ∃ t, hostStep s = .next t ∧ t.run = .halted reason ∧ t.bus = bus))

/-- Where every address names RAM, the Bus of `95_test_vectors.md` T0, every form of every instruction answers a next
state, but for `WDM` where it is fatal and `ADC`, `SBC` where decimal mode is refused; and so does every step that fetches
any other instruction, and every step outside Running. -/
def Obligations.EveryInstructionCompletesOnRam : Prop :=
  (∀ (i : Instr) (s : State), AllRam s → runnable i s = true → ∃ t, exec i s = .next t) ∧
  (∀ s : State, AllRam s → (s.run = .running → ∀ i u, fetchInstr s = .ok (i, u) → runnable i s = true) →
    ∃ t, step s = .next t)
end

