-- ==== Sys2Proof/Laws/State.lean ====
section
/-! SUPPORT. What each named update of the state leaves in each field, so that no proof unfolds a record update. -/

namespace Sys2Proof.Machine

open Sys2Proof

@[simp] theorem State.setP_a (s : State) (b : Byte) : (s.setP b).a = s.a := rfl
@[simp] theorem State.setP_x (s : State) (b : Byte) : (s.setP b).x = s.x := rfl
@[simp] theorem State.setP_y (s : State) (b : Byte) : (s.setP b).y = s.y := rfl
@[simp] theorem State.setP_sp (s : State) (b : Byte) : (s.setP b).sp = s.sp := rfl
@[simp] theorem State.setP_d (s : State) (b : Byte) : (s.setP b).d = s.d := rfl
@[simp] theorem State.setP_db (s : State) (b : Byte) : (s.setP b).db = s.db := rfl
@[simp] theorem State.setP_pb (s : State) (b : Byte) : (s.setP b).pb = s.pb := rfl
@[simp] theorem State.setP_pc (s : State) (b : Byte) : (s.setP b).pc = s.pc := rfl
@[simp] theorem State.setP_p (s : State) (b : Byte) : (s.setP b).p = Flags.ofByte b := rfl
@[simp] theorem State.setP_e (s : State) (b : Byte) : (s.setP b).e = s.e := rfl
@[simp] theorem State.setP_run (s : State) (b : Byte) : (s.setP b).run = s.run := rfl
@[simp] theorem State.setP_bus (s : State) (b : Byte) : (s.setP b).bus = s.bus := rfl
@[simp] theorem State.setP_cfg (s : State) (b : Byte) : (s.setP b).cfg = s.cfg := rfl
@[simp] theorem State.setP_draws (s : State) (b : Byte) : (s.setP b).draws = s.draws := rfl

@[simp] theorem State.setNZ_a (s : State) (v : Word) (w : Width) : (s.setNZ v w).a = s.a := rfl
@[simp] theorem State.setNZ_x (s : State) (v : Word) (w : Width) : (s.setNZ v w).x = s.x := rfl
@[simp] theorem State.setNZ_y (s : State) (v : Word) (w : Width) : (s.setNZ v w).y = s.y := rfl
@[simp] theorem State.setNZ_sp (s : State) (v : Word) (w : Width) : (s.setNZ v w).sp = s.sp := rfl
@[simp] theorem State.setNZ_d (s : State) (v : Word) (w : Width) : (s.setNZ v w).d = s.d := rfl
@[simp] theorem State.setNZ_db (s : State) (v : Word) (w : Width) : (s.setNZ v w).db = s.db := rfl
@[simp] theorem State.setNZ_pb (s : State) (v : Word) (w : Width) : (s.setNZ v w).pb = s.pb := rfl
@[simp] theorem State.setNZ_pc (s : State) (v : Word) (w : Width) : (s.setNZ v w).pc = s.pc := rfl
@[simp] theorem State.setNZ_p (s : State) (v : Word) (w : Width) : (s.setNZ v w).p = { s.p with n := topBit w v, z := truncW w v == 0 } := rfl
@[simp] theorem State.setNZ_e (s : State) (v : Word) (w : Width) : (s.setNZ v w).e = s.e := rfl
@[simp] theorem State.setNZ_run (s : State) (v : Word) (w : Width) : (s.setNZ v w).run = s.run := rfl
@[simp] theorem State.setNZ_bus (s : State) (v : Word) (w : Width) : (s.setNZ v w).bus = s.bus := rfl
@[simp] theorem State.setNZ_cfg (s : State) (v : Word) (w : Width) : (s.setNZ v w).cfg = s.cfg := rfl
@[simp] theorem State.setNZ_draws (s : State) (v : Word) (w : Width) : (s.setNZ v w).draws = s.draws := rfl

@[simp] theorem State.setC_a (s : State) (b : Bool) : (s.setC b).a = s.a := rfl
@[simp] theorem State.setC_x (s : State) (b : Bool) : (s.setC b).x = s.x := rfl
@[simp] theorem State.setC_y (s : State) (b : Bool) : (s.setC b).y = s.y := rfl
@[simp] theorem State.setC_sp (s : State) (b : Bool) : (s.setC b).sp = s.sp := rfl
@[simp] theorem State.setC_d (s : State) (b : Bool) : (s.setC b).d = s.d := rfl
@[simp] theorem State.setC_db (s : State) (b : Bool) : (s.setC b).db = s.db := rfl
@[simp] theorem State.setC_pb (s : State) (b : Bool) : (s.setC b).pb = s.pb := rfl
@[simp] theorem State.setC_pc (s : State) (b : Bool) : (s.setC b).pc = s.pc := rfl
@[simp] theorem State.setC_p (s : State) (b : Bool) : (s.setC b).p = { s.p with c := b } := rfl
@[simp] theorem State.setC_e (s : State) (b : Bool) : (s.setC b).e = s.e := rfl
@[simp] theorem State.setC_run (s : State) (b : Bool) : (s.setC b).run = s.run := rfl
@[simp] theorem State.setC_bus (s : State) (b : Bool) : (s.setC b).bus = s.bus := rfl
@[simp] theorem State.setC_cfg (s : State) (b : Bool) : (s.setC b).cfg = s.cfg := rfl
@[simp] theorem State.setC_draws (s : State) (b : Bool) : (s.setC b).draws = s.draws := rfl

@[simp] theorem State.setZ_a (s : State) (b : Bool) : (s.setZ b).a = s.a := rfl
@[simp] theorem State.setZ_x (s : State) (b : Bool) : (s.setZ b).x = s.x := rfl
@[simp] theorem State.setZ_y (s : State) (b : Bool) : (s.setZ b).y = s.y := rfl
@[simp] theorem State.setZ_sp (s : State) (b : Bool) : (s.setZ b).sp = s.sp := rfl
@[simp] theorem State.setZ_d (s : State) (b : Bool) : (s.setZ b).d = s.d := rfl
@[simp] theorem State.setZ_db (s : State) (b : Bool) : (s.setZ b).db = s.db := rfl
@[simp] theorem State.setZ_pb (s : State) (b : Bool) : (s.setZ b).pb = s.pb := rfl
@[simp] theorem State.setZ_pc (s : State) (b : Bool) : (s.setZ b).pc = s.pc := rfl
@[simp] theorem State.setZ_p (s : State) (b : Bool) : (s.setZ b).p = { s.p with z := b } := rfl
@[simp] theorem State.setZ_e (s : State) (b : Bool) : (s.setZ b).e = s.e := rfl
@[simp] theorem State.setZ_run (s : State) (b : Bool) : (s.setZ b).run = s.run := rfl
@[simp] theorem State.setZ_bus (s : State) (b : Bool) : (s.setZ b).bus = s.bus := rfl
@[simp] theorem State.setZ_cfg (s : State) (b : Bool) : (s.setZ b).cfg = s.cfg := rfl
@[simp] theorem State.setZ_draws (s : State) (b : Bool) : (s.setZ b).draws = s.draws := rfl

@[simp] theorem State.setV_a (s : State) (b : Bool) : (s.setV b).a = s.a := rfl
@[simp] theorem State.setV_x (s : State) (b : Bool) : (s.setV b).x = s.x := rfl
@[simp] theorem State.setV_y (s : State) (b : Bool) : (s.setV b).y = s.y := rfl
@[simp] theorem State.setV_sp (s : State) (b : Bool) : (s.setV b).sp = s.sp := rfl
@[simp] theorem State.setV_d (s : State) (b : Bool) : (s.setV b).d = s.d := rfl
@[simp] theorem State.setV_db (s : State) (b : Bool) : (s.setV b).db = s.db := rfl
@[simp] theorem State.setV_pb (s : State) (b : Bool) : (s.setV b).pb = s.pb := rfl
@[simp] theorem State.setV_pc (s : State) (b : Bool) : (s.setV b).pc = s.pc := rfl
@[simp] theorem State.setV_p (s : State) (b : Bool) : (s.setV b).p = { s.p with v := b } := rfl
@[simp] theorem State.setV_e (s : State) (b : Bool) : (s.setV b).e = s.e := rfl
@[simp] theorem State.setV_run (s : State) (b : Bool) : (s.setV b).run = s.run := rfl
@[simp] theorem State.setV_bus (s : State) (b : Bool) : (s.setV b).bus = s.bus := rfl
@[simp] theorem State.setV_cfg (s : State) (b : Bool) : (s.setV b).cfg = s.cfg := rfl
@[simp] theorem State.setV_draws (s : State) (b : Bool) : (s.setV b).draws = s.draws := rfl

@[simp] theorem State.setN_a (s : State) (b : Bool) : (s.setN b).a = s.a := rfl
@[simp] theorem State.setN_x (s : State) (b : Bool) : (s.setN b).x = s.x := rfl
@[simp] theorem State.setN_y (s : State) (b : Bool) : (s.setN b).y = s.y := rfl
@[simp] theorem State.setN_sp (s : State) (b : Bool) : (s.setN b).sp = s.sp := rfl
@[simp] theorem State.setN_d (s : State) (b : Bool) : (s.setN b).d = s.d := rfl
@[simp] theorem State.setN_db (s : State) (b : Bool) : (s.setN b).db = s.db := rfl
@[simp] theorem State.setN_pb (s : State) (b : Bool) : (s.setN b).pb = s.pb := rfl
@[simp] theorem State.setN_pc (s : State) (b : Bool) : (s.setN b).pc = s.pc := rfl
@[simp] theorem State.setN_p (s : State) (b : Bool) : (s.setN b).p = { s.p with n := b } := rfl
@[simp] theorem State.setN_e (s : State) (b : Bool) : (s.setN b).e = s.e := rfl
@[simp] theorem State.setN_run (s : State) (b : Bool) : (s.setN b).run = s.run := rfl
@[simp] theorem State.setN_bus (s : State) (b : Bool) : (s.setN b).bus = s.bus := rfl
@[simp] theorem State.setN_cfg (s : State) (b : Bool) : (s.setN b).cfg = s.cfg := rfl
@[simp] theorem State.setN_draws (s : State) (b : Bool) : (s.setN b).draws = s.draws := rfl

@[simp] theorem State.setI_a (s : State) (b : Bool) : (s.setI b).a = s.a := rfl
@[simp] theorem State.setI_x (s : State) (b : Bool) : (s.setI b).x = s.x := rfl
@[simp] theorem State.setI_y (s : State) (b : Bool) : (s.setI b).y = s.y := rfl
@[simp] theorem State.setI_sp (s : State) (b : Bool) : (s.setI b).sp = s.sp := rfl
@[simp] theorem State.setI_d (s : State) (b : Bool) : (s.setI b).d = s.d := rfl
@[simp] theorem State.setI_db (s : State) (b : Bool) : (s.setI b).db = s.db := rfl
@[simp] theorem State.setI_pb (s : State) (b : Bool) : (s.setI b).pb = s.pb := rfl
@[simp] theorem State.setI_pc (s : State) (b : Bool) : (s.setI b).pc = s.pc := rfl
@[simp] theorem State.setI_p (s : State) (b : Bool) : (s.setI b).p = { s.p with i := b } := rfl
@[simp] theorem State.setI_e (s : State) (b : Bool) : (s.setI b).e = s.e := rfl
@[simp] theorem State.setI_run (s : State) (b : Bool) : (s.setI b).run = s.run := rfl
@[simp] theorem State.setI_bus (s : State) (b : Bool) : (s.setI b).bus = s.bus := rfl
@[simp] theorem State.setI_cfg (s : State) (b : Bool) : (s.setI b).cfg = s.cfg := rfl
@[simp] theorem State.setI_draws (s : State) (b : Bool) : (s.setI b).draws = s.draws := rfl

@[simp] theorem State.setD_a (s : State) (b : Bool) : (s.setD b).a = s.a := rfl
@[simp] theorem State.setD_x (s : State) (b : Bool) : (s.setD b).x = s.x := rfl
@[simp] theorem State.setD_y (s : State) (b : Bool) : (s.setD b).y = s.y := rfl
@[simp] theorem State.setD_sp (s : State) (b : Bool) : (s.setD b).sp = s.sp := rfl
@[simp] theorem State.setD_d (s : State) (b : Bool) : (s.setD b).d = s.d := rfl
@[simp] theorem State.setD_db (s : State) (b : Bool) : (s.setD b).db = s.db := rfl
@[simp] theorem State.setD_pb (s : State) (b : Bool) : (s.setD b).pb = s.pb := rfl
@[simp] theorem State.setD_pc (s : State) (b : Bool) : (s.setD b).pc = s.pc := rfl
@[simp] theorem State.setD_p (s : State) (b : Bool) : (s.setD b).p = { s.p with d := b } := rfl
@[simp] theorem State.setD_e (s : State) (b : Bool) : (s.setD b).e = s.e := rfl
@[simp] theorem State.setD_run (s : State) (b : Bool) : (s.setD b).run = s.run := rfl
@[simp] theorem State.setD_bus (s : State) (b : Bool) : (s.setD b).bus = s.bus := rfl
@[simp] theorem State.setD_cfg (s : State) (b : Bool) : (s.setD b).cfg = s.cfg := rfl
@[simp] theorem State.setD_draws (s : State) (b : Bool) : (s.setD b).draws = s.draws := rfl

@[simp] theorem State.writeA_a (s : State) (v : Word) : (s.writeA v).a = mergeW s.wA s.a v := rfl
@[simp] theorem State.writeA_x (s : State) (v : Word) : (s.writeA v).x = s.x := rfl
@[simp] theorem State.writeA_y (s : State) (v : Word) : (s.writeA v).y = s.y := rfl
@[simp] theorem State.writeA_sp (s : State) (v : Word) : (s.writeA v).sp = s.sp := rfl
@[simp] theorem State.writeA_d (s : State) (v : Word) : (s.writeA v).d = s.d := rfl
@[simp] theorem State.writeA_db (s : State) (v : Word) : (s.writeA v).db = s.db := rfl
@[simp] theorem State.writeA_pb (s : State) (v : Word) : (s.writeA v).pb = s.pb := rfl
@[simp] theorem State.writeA_pc (s : State) (v : Word) : (s.writeA v).pc = s.pc := rfl
@[simp] theorem State.writeA_p (s : State) (v : Word) : (s.writeA v).p = s.p := rfl
@[simp] theorem State.writeA_e (s : State) (v : Word) : (s.writeA v).e = s.e := rfl
@[simp] theorem State.writeA_run (s : State) (v : Word) : (s.writeA v).run = s.run := rfl
@[simp] theorem State.writeA_bus (s : State) (v : Word) : (s.writeA v).bus = s.bus := rfl
@[simp] theorem State.writeA_cfg (s : State) (v : Word) : (s.writeA v).cfg = s.cfg := rfl
@[simp] theorem State.writeA_draws (s : State) (v : Word) : (s.writeA v).draws = s.draws := rfl

@[simp] theorem State.writeX_a (s : State) (v : Word) : (s.writeX v).a = s.a := rfl
@[simp] theorem State.writeX_x (s : State) (v : Word) : (s.writeX v).x = mergeW s.wX s.x v := rfl
@[simp] theorem State.writeX_y (s : State) (v : Word) : (s.writeX v).y = s.y := rfl
@[simp] theorem State.writeX_sp (s : State) (v : Word) : (s.writeX v).sp = s.sp := rfl
@[simp] theorem State.writeX_d (s : State) (v : Word) : (s.writeX v).d = s.d := rfl
@[simp] theorem State.writeX_db (s : State) (v : Word) : (s.writeX v).db = s.db := rfl
@[simp] theorem State.writeX_pb (s : State) (v : Word) : (s.writeX v).pb = s.pb := rfl
@[simp] theorem State.writeX_pc (s : State) (v : Word) : (s.writeX v).pc = s.pc := rfl
@[simp] theorem State.writeX_p (s : State) (v : Word) : (s.writeX v).p = s.p := rfl
@[simp] theorem State.writeX_e (s : State) (v : Word) : (s.writeX v).e = s.e := rfl
@[simp] theorem State.writeX_run (s : State) (v : Word) : (s.writeX v).run = s.run := rfl
@[simp] theorem State.writeX_bus (s : State) (v : Word) : (s.writeX v).bus = s.bus := rfl
@[simp] theorem State.writeX_cfg (s : State) (v : Word) : (s.writeX v).cfg = s.cfg := rfl
@[simp] theorem State.writeX_draws (s : State) (v : Word) : (s.writeX v).draws = s.draws := rfl

@[simp] theorem State.writeY_a (s : State) (v : Word) : (s.writeY v).a = s.a := rfl
@[simp] theorem State.writeY_x (s : State) (v : Word) : (s.writeY v).x = s.x := rfl
@[simp] theorem State.writeY_y (s : State) (v : Word) : (s.writeY v).y = mergeW s.wX s.y v := rfl
@[simp] theorem State.writeY_sp (s : State) (v : Word) : (s.writeY v).sp = s.sp := rfl
@[simp] theorem State.writeY_d (s : State) (v : Word) : (s.writeY v).d = s.d := rfl
@[simp] theorem State.writeY_db (s : State) (v : Word) : (s.writeY v).db = s.db := rfl
@[simp] theorem State.writeY_pb (s : State) (v : Word) : (s.writeY v).pb = s.pb := rfl
@[simp] theorem State.writeY_pc (s : State) (v : Word) : (s.writeY v).pc = s.pc := rfl
@[simp] theorem State.writeY_p (s : State) (v : Word) : (s.writeY v).p = s.p := rfl
@[simp] theorem State.writeY_e (s : State) (v : Word) : (s.writeY v).e = s.e := rfl
@[simp] theorem State.writeY_run (s : State) (v : Word) : (s.writeY v).run = s.run := rfl
@[simp] theorem State.writeY_bus (s : State) (v : Word) : (s.writeY v).bus = s.bus := rfl
@[simp] theorem State.writeY_cfg (s : State) (v : Word) : (s.writeY v).cfg = s.cfg := rfl
@[simp] theorem State.writeY_draws (s : State) (v : Word) : (s.writeY v).draws = s.draws := rfl

@[simp] theorem State.writeS_a (s : State) (v : Word) : (s.writeS v).a = s.a := rfl
@[simp] theorem State.writeS_x (s : State) (v : Word) : (s.writeS v).x = s.x := rfl
@[simp] theorem State.writeS_y (s : State) (v : Word) : (s.writeS v).y = s.y := rfl
@[simp] theorem State.writeS_sp (s : State) (v : Word) : (s.writeS v).sp = if s.e then mkWord 0x01 (lowByte v) else v := rfl
@[simp] theorem State.writeS_d (s : State) (v : Word) : (s.writeS v).d = s.d := rfl
@[simp] theorem State.writeS_db (s : State) (v : Word) : (s.writeS v).db = s.db := rfl
@[simp] theorem State.writeS_pb (s : State) (v : Word) : (s.writeS v).pb = s.pb := rfl
@[simp] theorem State.writeS_pc (s : State) (v : Word) : (s.writeS v).pc = s.pc := rfl
@[simp] theorem State.writeS_p (s : State) (v : Word) : (s.writeS v).p = s.p := rfl
@[simp] theorem State.writeS_e (s : State) (v : Word) : (s.writeS v).e = s.e := rfl
@[simp] theorem State.writeS_run (s : State) (v : Word) : (s.writeS v).run = s.run := rfl
@[simp] theorem State.writeS_bus (s : State) (v : Word) : (s.writeS v).bus = s.bus := rfl
@[simp] theorem State.writeS_cfg (s : State) (v : Word) : (s.writeS v).cfg = s.cfg := rfl
@[simp] theorem State.writeS_draws (s : State) (v : Word) : (s.writeS v).draws = s.draws := rfl

@[simp] theorem State.writeA_m8 (s : State) (v : Word) : (s.writeA v).m8 = s.m8 := rfl
@[simp] theorem State.writeA_x8 (s : State) (v : Word) : (s.writeA v).x8 = s.x8 := rfl
@[simp] theorem State.writeA_wA (s : State) (v : Word) : (s.writeA v).wA = s.wA := rfl
@[simp] theorem State.writeA_wX (s : State) (v : Word) : (s.writeA v).wX = s.wX := rfl
@[simp] theorem State.writeA_decodeContext (s : State) (v : Word) : (s.writeA v).decodeContext = s.decodeContext := rfl
@[simp] theorem State.writeX_m8 (s : State) (v : Word) : (s.writeX v).m8 = s.m8 := rfl
@[simp] theorem State.writeX_x8 (s : State) (v : Word) : (s.writeX v).x8 = s.x8 := rfl
@[simp] theorem State.writeX_wA (s : State) (v : Word) : (s.writeX v).wA = s.wA := rfl
@[simp] theorem State.writeX_wX (s : State) (v : Word) : (s.writeX v).wX = s.wX := rfl
@[simp] theorem State.writeX_decodeContext (s : State) (v : Word) : (s.writeX v).decodeContext = s.decodeContext := rfl
@[simp] theorem State.writeY_m8 (s : State) (v : Word) : (s.writeY v).m8 = s.m8 := rfl
@[simp] theorem State.writeY_x8 (s : State) (v : Word) : (s.writeY v).x8 = s.x8 := rfl
@[simp] theorem State.writeY_wA (s : State) (v : Word) : (s.writeY v).wA = s.wA := rfl
@[simp] theorem State.writeY_wX (s : State) (v : Word) : (s.writeY v).wX = s.wX := rfl
@[simp] theorem State.writeY_decodeContext (s : State) (v : Word) : (s.writeY v).decodeContext = s.decodeContext := rfl
@[simp] theorem State.writeS_m8 (s : State) (v : Word) : (s.writeS v).m8 = s.m8 := rfl
@[simp] theorem State.writeS_x8 (s : State) (v : Word) : (s.writeS v).x8 = s.x8 := rfl
@[simp] theorem State.writeS_wA (s : State) (v : Word) : (s.writeS v).wA = s.wA := rfl
@[simp] theorem State.writeS_wX (s : State) (v : Word) : (s.writeS v).wX = s.wX := rfl
@[simp] theorem State.writeS_decodeContext (s : State) (v : Word) : (s.writeS v).decodeContext = s.decodeContext := rfl

@[simp] theorem State.m8_with_bus (s : State) (b : Bus) : State.m8 { s with bus := b } = s.m8 := rfl
@[simp] theorem State.x8_with_bus (s : State) (b : Bus) : State.x8 { s with bus := b } = s.x8 := rfl
@[simp] theorem State.wA_with_bus (s : State) (b : Bus) : State.wA { s with bus := b } = s.wA := rfl
@[simp] theorem State.wX_with_bus (s : State) (b : Bus) : State.wX { s with bus := b } = s.wX := rfl
@[simp] theorem State.aV_with_bus (s : State) (b : Bus) : State.aV { s with bus := b } = s.aV := rfl
@[simp] theorem State.xV_with_bus (s : State) (b : Bus) : State.xV { s with bus := b } = s.xV := rfl
@[simp] theorem State.yV_with_bus (s : State) (b : Bus) : State.yV { s with bus := b } = s.yV := rfl
@[simp] theorem State.dEff_with_bus (s : State) (b : Bus) : State.dEff { s with bus := b } = s.dEff := rfl
@[simp] theorem State.m8_with_draws (s : State) (n : Nat) : State.m8 { s with draws := n } = s.m8 := rfl
@[simp] theorem State.x8_with_draws (s : State) (n : Nat) : State.x8 { s with draws := n } = s.x8 := rfl
@[simp] theorem State.wA_with_draws (s : State) (n : Nat) : State.wA { s with draws := n } = s.wA := rfl
@[simp] theorem State.wX_with_draws (s : State) (n : Nat) : State.wX { s with draws := n } = s.wX := rfl
@[simp] theorem State.aV_with_draws (s : State) (n : Nat) : State.aV { s with draws := n } = s.aV := rfl
@[simp] theorem State.xV_with_draws (s : State) (n : Nat) : State.xV { s with draws := n } = s.xV := rfl
@[simp] theorem State.yV_with_draws (s : State) (n : Nat) : State.yV { s with draws := n } = s.yV := rfl
@[simp] theorem State.dEff_with_draws (s : State) (n : Nat) : State.dEff { s with draws := n } = s.dEff := rfl
@[simp] theorem State.m8_with_pc (s : State) (v : Word) : State.m8 { s with pc := v } = s.m8 := rfl
@[simp] theorem State.x8_with_pc (s : State) (v : Word) : State.x8 { s with pc := v } = s.x8 := rfl
@[simp] theorem State.wA_with_pc (s : State) (v : Word) : State.wA { s with pc := v } = s.wA := rfl
@[simp] theorem State.wX_with_pc (s : State) (v : Word) : State.wX { s with pc := v } = s.wX := rfl
@[simp] theorem State.aV_with_pc (s : State) (v : Word) : State.aV { s with pc := v } = s.aV := rfl
@[simp] theorem State.xV_with_pc (s : State) (v : Word) : State.xV { s with pc := v } = s.xV := rfl
@[simp] theorem State.yV_with_pc (s : State) (v : Word) : State.yV { s with pc := v } = s.yV := rfl
@[simp] theorem State.dEff_with_pc (s : State) (v : Word) : State.dEff { s with pc := v } = s.dEff := rfl
@[simp] theorem State.m8_with_sp (s : State) (v : Word) : State.m8 { s with sp := v } = s.m8 := rfl
@[simp] theorem State.x8_with_sp (s : State) (v : Word) : State.x8 { s with sp := v } = s.x8 := rfl
@[simp] theorem State.wA_with_sp (s : State) (v : Word) : State.wA { s with sp := v } = s.wA := rfl
@[simp] theorem State.wX_with_sp (s : State) (v : Word) : State.wX { s with sp := v } = s.wX := rfl
@[simp] theorem State.aV_with_sp (s : State) (v : Word) : State.aV { s with sp := v } = s.aV := rfl
@[simp] theorem State.xV_with_sp (s : State) (v : Word) : State.xV { s with sp := v } = s.xV := rfl
@[simp] theorem State.yV_with_sp (s : State) (v : Word) : State.yV { s with sp := v } = s.yV := rfl
@[simp] theorem State.dEff_with_sp (s : State) (v : Word) : State.dEff { s with sp := v } = s.dEff := rfl

end Sys2Proof.Machine
end

