-- ==== Sys2Proof/Laws/Bits.lean ====
section
/-! SUPPORT. Taking words and addresses apart and putting them together, values at a width, and the status byte. -/

namespace Sys2Proof.Machine

open Sys2Proof

@[simp] theorem lowByte_mkWord (hi lo : Byte) : lowByte (mkWord hi lo) = lo := by
  apply BitVec.eq_of_getLsbD_eq
  intro i hi'
  simp only [lowByte, mkWord, BitVec.getLsbD_extractLsb', BitVec.getLsbD_append]
  simp [hi']

@[simp] theorem highByte_mkWord (hi lo : Byte) : highByte (mkWord hi lo) = hi := by
  apply BitVec.eq_of_getLsbD_eq
  intro i hi'
  simp only [highByte, mkWord, BitVec.getLsbD_extractLsb', BitVec.getLsbD_append]
  have : ¬ (8 + i < 8) := by omega
  simp [hi', this]

@[simp] theorem mkWord_high_low (v : Word) : mkWord (highByte v) (lowByte v) = v := by
  apply BitVec.eq_of_getLsbD_eq
  intro i hi'
  simp only [highByte, lowByte, mkWord, BitVec.getLsbD_extractLsb', BitVec.getLsbD_append]
  by_cases h : i < 8
  · simp [h]
  · have h8 : i - 8 < 8 := by omega
    simp [h, h8, show 8 + (i - 8) = i by omega]

@[simp] theorem offsetOf_mkAddr (bank : Byte) (off : Word) : offsetOf (mkAddr bank off) = off := by
  apply BitVec.eq_of_getLsbD_eq
  intro i hi'
  simp only [offsetOf, mkAddr, BitVec.getLsbD_extractLsb', BitVec.getLsbD_append]
  simp [hi']

@[simp] theorem bankOf_mkAddr (bank : Byte) (off : Word) : bankOf (mkAddr bank off) = bank := by
  apply BitVec.eq_of_getLsbD_eq
  intro i hi'
  simp only [bankOf, mkAddr, BitVec.getLsbD_extractLsb', BitVec.getLsbD_append]
  have : ¬ (16 + i < 16) := by omega
  simp [hi', this]

@[simp] theorem mkAddr_bank_offset (a : Addr) : mkAddr (bankOf a) (offsetOf a) = a := by
  apply BitVec.eq_of_getLsbD_eq
  intro i hi'
  simp only [bankOf, offsetOf, mkAddr, BitVec.getLsbD_extractLsb', BitVec.getLsbD_append]
  by_cases h : i < 16
  · simp [h]
  · have h8 : i - 16 < 8 := by omega
    simp [h, h8, show 16 + (i - 16) = i by omega]

theorem toNat_mkWord (hi lo : Byte) : (mkWord hi lo).toNat = hi.toNat * 256 + lo.toNat := by
  have h := lo.isLt
  simp only [mkWord, BitVec.toNat_append, Nat.shiftLeft_eq]
  rw [← Nat.shiftLeft_eq, ← Nat.shiftLeft_add_eq_or_of_lt (by simpa using h), Nat.shiftLeft_eq]

theorem toNat_mkAddr (bank : Byte) (off : Word) : (mkAddr bank off).toNat = bank.toNat * 65536 + off.toNat := by
  have h := off.isLt
  simp only [mkAddr, BitVec.toNat_append, Nat.shiftLeft_eq]
  rw [← Nat.shiftLeft_eq, ← Nat.shiftLeft_add_eq_or_of_lt (by simpa using h), Nat.shiftLeft_eq]

theorem toNat_zextByte (b : Byte) : (zextByte b).toNat = b.toNat := by
  have := b.isLt
  simp only [zextByte, BitVec.toNat_setWidth]
  omega

theorem toNat_zextWord (v : Word) : (zextWord v).toNat = v.toNat := by
  have := v.isLt
  simp only [zextWord, BitVec.toNat_setWidth]
  omega

theorem toNat_lowByte (v : Word) : (lowByte v).toNat = v.toNat % 256 := by
  simp [lowByte, BitVec.extractLsb'_toNat]

theorem toNat_highByte (v : Word) : (highByte v).toNat = v.toNat / 256 := by
  have := v.isLt
  simp only [highByte, BitVec.extractLsb'_toNat, Nat.shiftRight_eq_div_pow]
  omega

@[simp] theorem lowByte_zextByte (b : Byte) : lowByte (zextByte b) = b := by
  apply BitVec.eq_of_toNat_eq
  have := b.isLt
  rw [toNat_lowByte, toNat_zextByte]
  omega

/-- The value of a word reduced to a width. -/
theorem toNat_truncW (w : Width) (v : Word) : (truncW w v).toNat = v.toNat % 2 ^ bitsOf w := by
  have := v.isLt
  cases w with
  | w8 => simp only [truncW, bitsOf, toNat_zextByte, toNat_lowByte]; rfl
  | w16 => simp only [truncW, bitsOf]; omega

@[simp] theorem truncW_truncW (w : Width) (v : Word) : truncW w (truncW w v) = truncW w v := by
  cases w <;> simp [truncW]

@[simp] theorem truncW_zextByte (b : Byte) : truncW .w8 (zextByte b) = zextByte b := by
  simp [truncW]

/-- The status byte and the flag vector are the same data (`10_state.md` R20). -/
@[simp] theorem Flags.ofByte_toByte (p : Flags) : Flags.ofByte p.toByte = p := by
  obtain ⟨c, z, i, d, x, m, v, n⟩ := p
  cases c <;> cases z <;> cases i <;> cases d <;> cases x <;> cases m <;> cases v <;> cases n <;> rfl

set_option maxRecDepth 4000 in
@[simp] theorem Flags.toByte_ofByte (b : Byte) : (Flags.ofByte b).toByte = b := by
  revert b
  decide

end Sys2Proof.Machine
end

