-- ==== Sys2Proof/Laws/Memory.lean ====
section
/-! SUPPORT. Byte storage: reading what was written, what a write leaves alone, and the canonical form. -/

namespace Sys2Proof.Machine

open Sys2Proof

theorem Memory.read_cons (i j : Nat) (b : Byte) (m : Memory) :
    Memory.read (Memory.cons i b m) j =
      if b = unlistedByte then Memory.read m j else if i = j then b else Memory.read m j := by
  unfold Memory.cons
  split <;> simp [Memory.read]

/-- A write leaves every other location alone, whatever the form of the store. -/
theorem Memory.read_write_other (m : Memory) (i j : Nat) (b : Byte) (h : j ≠ i) :
    Memory.read (Memory.write m i b) j = Memory.read m j := by
  induction m with
  | nil => simp [Memory.write, Memory.read_cons, Memory.read, Ne.symm h]
  | cons cell m ih =>
    obtain ⟨k, v⟩ := cell
    unfold Memory.write
    split
    · simp [Memory.read_cons, Ne.symm h]
    · split
      · rename_i h1 h2
        subst h2
        simp [Memory.read_cons, Memory.read, Ne.symm h]
      · simp [Memory.read, ih]

/-- A location below every listed one is unlisted. -/
theorem Memory.read_of_above (m : Memory) (i : Nat) (h : Memory.above i m = true) (hw : Memory.wf m = true) :
    Memory.read m i = unlistedByte := by
  induction m with
  | nil => rfl
  | cons cell m ih =>
    obtain ⟨k, v⟩ := cell
    simp only [Memory.wf, Memory.above, Bool.and_eq_true, decide_eq_true_eq] at h hw
    have hk : k ≠ i := by omega
    simp only [Memory.read, if_neg hk]
    refine ih ?_ hw.2
    cases m with
    | nil => rfl
    | cons c m => simp only [Memory.above, decide_eq_true_eq] at hw ⊢; omega

/-- A read after a write to the same location gives the value written. -/
theorem Memory.read_write_same (m : Memory) (i : Nat) (b : Byte) (hw : Memory.wf m = true) :
    Memory.read (Memory.write m i b) i = b := by
  induction m with
  | nil => simp only [Memory.write, Memory.read_cons, Memory.read]; split <;> simp_all
  | cons cell m ih =>
    obtain ⟨k, v⟩ := cell
    unfold Memory.write
    split
    · rename_i h1
      rw [Memory.read_cons]
      split
      · rename_i h2
        rw [h2]
        exact Memory.read_of_above _ _ (by simpa [Memory.above] using h1) hw
      · simp
    · split
      · rename_i h1 h2
        subst h2
        simp only [Memory.wf, Bool.and_eq_true] at hw
        rw [Memory.read_cons]
        split
        · rename_i h3
          rw [h3]
          exact Memory.read_of_above _ _ hw.1.2 hw.2
        · simp
      · rename_i h1 h2
        simp only [Memory.wf, Bool.and_eq_true] at hw
        simp [Memory.read, Ne.symm h2, ih hw.2]

theorem Memory.wf_cons (i : Nat) (b : Byte) (m : Memory) (ha : Memory.above i m = true) (hw : Memory.wf m = true) :
    Memory.wf (Memory.cons i b m) = true := by
  unfold Memory.cons
  split
  · exact hw
  · rename_i h
    simp [Memory.wf, ha, hw, h]

theorem Memory.above_write (m : Memory) (i j : Nat) (b : Byte) (hj : j < i) (ha : Memory.above j m = true)
    (hw : Memory.wf m = true) : Memory.above j (Memory.write m i b) = true := by
  cases m with
  | nil => unfold Memory.write Memory.cons; split <;> simp [Memory.above, hj]
  | cons cell m =>
    obtain ⟨k, v⟩ := cell
    simp only [Memory.wf, Memory.above, Bool.and_eq_true, decide_eq_true_eq] at ha hw
    unfold Memory.write
    split
    · unfold Memory.cons; split <;> simp [Memory.above, hj, ha]
    · split
      · unfold Memory.cons
        split
        · cases m with
          | nil => rfl
          | cons c m => simp only [Memory.above, decide_eq_true_eq] at hw ⊢; omega
        · simp [Memory.above, hj]
      · simp [Memory.above, ha]

/-- A write keeps the canonical form. -/
theorem Memory.wf_write (m : Memory) (i : Nat) (b : Byte) (hw : Memory.wf m = true) :
    Memory.wf (Memory.write m i b) = true := by
  induction m with
  | nil => exact Memory.wf_cons i b [] rfl rfl
  | cons cell m ih =>
    obtain ⟨k, v⟩ := cell
    have hw' := hw
    simp only [Memory.wf, Bool.and_eq_true] at hw'
    unfold Memory.write
    split
    · rename_i h1
      exact Memory.wf_cons _ _ _ (by simpa [Memory.above] using h1) hw
    · split
      · rename_i h1 h2
        subst h2
        exact Memory.wf_cons _ _ _ hw'.1.2 hw'.2
      · rename_i h1 h2
        simp only [Memory.wf, Bool.and_eq_true]
        exact ⟨⟨hw'.1.1, Memory.above_write m i k b (by omega) hw'.1.2 hw'.2⟩, ih hw'.2⟩

theorem State.reset_bus_wf : State.reset.bus.wf = true := rfl

end Sys2Proof.Machine
end

