-- ==== Sys2Proof/Laws/Bus.lean ====
section
/-! SUPPORT. Once for each operation on the Bus: everything it can do when it answers. A read changes at most the count of
free values drawn and the device state; a write changes at most the two RAM stores and the device state. -/

namespace Sys2Proof.Machine

open Sys2Proof

/-! ## Binding -/

theorem bind_eq_ok {α β : Type} {m : Except Stop α} {f : α → Except Stop β} {r : β} :
    (m >>= f) = .ok r ↔ ∃ x, m = .ok x ∧ f x = .ok r := by
  cases m with
  | error e =>
    constructor
    · intro h; cases h
    · rintro ⟨_, h, _⟩; cases h
  | ok x =>
    constructor
    · intro h; exact ⟨x, rfl, h⟩
    · rintro ⟨_, h, h'⟩; cases h; exact h'

theorem ok_bind {α β : Type} (x : α) (f : α → Except Stop β) : ((Except.ok x : Except Stop α) >>= f) = f x := rfl

theorem error_bind {α β : Type} (e : Stop) (f : α → Except Stop β) :
    ((Except.error e : Except Stop α) >>= f) = .error e := rfl

theorem pure_eq_ok {α : Type} (x : α) : (pure x : Except Stop α) = .ok x := rfl

theorem finish_eq_next {m : Except Stop State} {t : State} : finish m = .next t ↔ m = .ok t := by
  cases m with
  | ok s => simp [finish]
  | error e => cases e <;> simp [finish, Stop.answer]

@[simp] theorem finish_ok (t : State) : finish (.ok t) = .next t := rfl

/-! ## One byte -/

/-- Everything `readByte` does when it answers. -/
theorem readByte_ok {addr : Addr} {s t : State} {b : Byte} (h : readByte addr s = .ok (b, t)) :
    (peek s addr = some b ∧ t = s) ∨
    (locate s.cfg addr = .registerWindow ∧ s.cfg.regWindowPolicy = .stub ∧ b = freeByte s.draws ∧
      t = { s with draws := s.draws + 1 }) ∨
    (locate s.cfg addr = .device ∧ ∃ d, deviceRead s.bus.device addr = some (b, d) ∧
      t = { s with bus := { s.bus with device := d } }) := by
  unfold readByte at h
  unfold peek
  split at h
  · cases h; simp
  · cases h; simp
  · split at h
    · cases h; simp_all
    · cases h
  · split at h
    · cases h
    · cases h; simp_all
  · split at h
    · cases h; simp_all
    · cases h
  · cases h

/-- A stored byte is read without any change. -/
theorem readByte_of_peek {addr : Addr} {s : State} {b : Byte} (h : peek s addr = some b) :
    readByte addr s = .ok (b, s) := by
  unfold peek at h
  unfold readByte
  split at h <;> simp_all

/-- A read changes at most the count of free values and the device state. -/
theorem readByte_frame {addr : Addr} {s t : State} {b : Byte} (h : readByte addr s = .ok (b, t)) :
    t = { s with draws := t.draws, bus := { s.bus with device := t.bus.device } } := by
  rcases readByte_ok h with ⟨_, rfl⟩ | ⟨_, _, _, rfl⟩ | ⟨_, _, _, rfl⟩ <;> rfl

/-- A write of a byte to RAM. -/
def storeRam (s : State) (p : Place) (v : Byte) : Bus :=
  match p with
  | .workRam i => { s.bus with wram := Memory.write s.bus.wram i v }
  | .saveRam i => { s.bus with sram := Memory.write s.bus.sram i v }
  | .rom _ => s.bus
  | .registerWindow => s.bus
  | .device => s.bus
  | .unmapped => s.bus

/-- Everything `writeByte` does when it answers. -/
theorem writeByte_ok {addr : Addr} {v : Byte} {s t : State} (h : writeByte addr v s = .ok t) :
    (t = { s with bus := storeRam s (locate s.cfg addr) v } ∧
      (isRam s addr = true ∨ (locate s.cfg addr = .registerWindow ∧ s.cfg.regWindowPolicy = .stub))) ∨
    (locate s.cfg addr = .device ∧ ∃ d, deviceWrite s.bus.device addr v = .ok d ∧
      t = { s with bus := { s.bus with device := d } }) := by
  unfold writeByte at h
  unfold isRam
  split at h
  · cases h; rename_i i hi; simp [hi, storeRam, Place.isRam]
  · cases h; rename_i i hi; simp [hi, storeRam, Place.isRam]
  · cases h
  · split at h
    · cases h
    · cases h; rename_i h1 _ h2; simp [h1, h2, storeRam]
  · split at h
    · cases h; rename_i h1 _ d h2; exact Or.inr ⟨h1, d, h2, rfl⟩
    · cases h
    · cases h
  · cases h

/-- A write to RAM always answers. -/
theorem writeByte_of_isRam {addr : Addr} (v : Byte) {s : State} (h : isRam s addr = true) :
    writeByte addr v s = .ok { s with bus := storeRam s (locate s.cfg addr) v } := by
  unfold isRam at h
  unfold writeByte
  split <;> simp_all [Place.isRam, storeRam]

/-- RAM holds a byte. -/
theorem peek_of_isRam {addr : Addr} {s : State} (h : isRam s addr = true) : ∃ b, peek s addr = some b := by
  unfold isRam at h
  unfold peek
  split <;> simp_all [Place.isRam]

theorem writeByte_frame {addr : Addr} {v : Byte} {s t : State} (h : writeByte addr v s = .ok t) :
    t = { s with bus := t.bus } := by
  rcases writeByte_ok h with ⟨h, -⟩ | ⟨-, _, -, h⟩ <;> rw [h]

/-- A write never changes the cartridge image. -/
theorem writeByte_rom {addr : Addr} {v : Byte} {s t : State} (h : writeByte addr v s = .ok t) :
    t.bus.rom = s.bus.rom := by
  rcases writeByte_ok h with ⟨h, -⟩ | ⟨-, _, -, h⟩ <;> rw [h]
  unfold storeRam
  split <;> rfl

/-- A write to RAM keeps the canonical form. -/
theorem storeRam_wf (s : State) (p : Place) (v : Byte) (hw : s.bus.wf = true) : (storeRam s p v).wf = true := by
  simp only [Bus.wf, Bool.and_eq_true] at hw ⊢
  unfold storeRam
  split
  · exact ⟨⟨Memory.wf_write _ _ _ hw.1.1, hw.1.2⟩, hw.2⟩
  · exact ⟨⟨hw.1.1, Memory.wf_write _ _ _ hw.1.2⟩, hw.2⟩
  all_goals exact ⟨⟨hw.1.1, hw.1.2⟩, hw.2⟩

/-- A write keeps the canonical form. -/
theorem writeByte_wf {addr : Addr} {v : Byte} {s t : State} (h : writeByte addr v s = .ok t) (hw : s.bus.wf = true) :
    t.bus.wf = true := by
  rcases writeByte_ok h with ⟨h, -⟩ | ⟨-, _, -, h⟩ <;> rw [h]
  · exact storeRam_wf s _ v hw
  · exact hw

/-- A write leaves every byte at another place alone. -/
theorem writeByte_peek_other {addr b : Addr} {v : Byte} {s t : State} (h : writeByte addr v s = .ok t)
    (hb : apart s b addr = true) : peek t b = peek s b := by
  rcases writeByte_ok h with ⟨h, -⟩ | ⟨-, _, -, h⟩ <;> rw [h]
  · simp only [apart, bne_iff_ne, ne_eq] at hb
    unfold peek storeRam
    cases hA : locate s.cfg addr <;> cases hB : locate s.cfg b <;> simp only [] <;> try rfl
    all_goals
      rw [Memory.read_write_other]
      intro h3
      simp_all
  · rfl

/-- A byte written to RAM is read back. -/
theorem writeByte_peek_same {addr : Addr} {v : Byte} {s t : State} (h : writeByte addr v s = .ok t)
    (hr : isRam s addr = true) (hw : s.bus.wf = true) : peek t addr = some v := by
  rw [writeByte_of_isRam v hr] at h
  cases h
  simp only [Bus.wf, Bool.and_eq_true] at hw
  unfold isRam at hr
  unfold peek storeRam
  simp only
  split <;> simp_all [Place.isRam, Memory.read_write_same]

/-! ## Several bytes -/

theorem readWord_ok {addr : Addr} {s t : State} {v : Word} (h : readWord addr s = .ok (v, t)) :
    ∃ lo hi u, readByte addr s = .ok (lo, u) ∧ readByte (addr + 1) u = .ok (hi, t) ∧ v = mkWord hi lo := by
  unfold readWord at h
  obtain ⟨⟨lo, u⟩, h1, h⟩ := bind_eq_ok.mp h
  obtain ⟨⟨hi, w⟩, h2, h⟩ := bind_eq_ok.mp h
  cases h
  exact ⟨lo, hi, u, h1, h2, rfl⟩

theorem readWord_of_peek {addr : Addr} {s : State} {lo hi : Byte} (h1 : peek s addr = some lo)
    (h2 : peek s (addr + 1) = some hi) : readWord addr s = .ok (mkWord hi lo, s) := by
  unfold readWord
  rw [readByte_of_peek h1, ok_bind]
  simp only [readByte_of_peek h2, ok_bind]
  rfl

theorem readWord_frame {addr : Addr} {s t : State} {v : Word} (h : readWord addr s = .ok (v, t)) :
    t = { s with draws := t.draws, bus := { s.bus with device := t.bus.device } } := by
  obtain ⟨lo, hi, u, h1, h2, -⟩ := readWord_ok h
  rw [readByte_frame h2, readByte_frame h1]

theorem readLong_ok {addr a : Addr} {s t : State} (h : readLong addr s = .ok (a, t)) :
    ∃ lo hi bank u w, readByte addr s = .ok (lo, u) ∧ readByte (addr + 1) u = .ok (hi, w) ∧
      readByte (addr + 2) w = .ok (bank, t) ∧ a = mkAddr bank (mkWord hi lo) := by
  unfold readLong at h
  obtain ⟨⟨lo, u⟩, h1, h⟩ := bind_eq_ok.mp h
  obtain ⟨⟨hi, w⟩, h2, h⟩ := bind_eq_ok.mp h
  obtain ⟨⟨bank, x⟩, h3, h⟩ := bind_eq_ok.mp h
  cases h
  exact ⟨lo, hi, bank, u, w, h1, h2, h3, rfl⟩

theorem readLong_of_peek {addr : Addr} {s : State} {lo hi bank : Byte} (h1 : peek s addr = some lo)
    (h2 : peek s (addr + 1) = some hi) (h3 : peek s (addr + 2) = some bank) :
    readLong addr s = .ok (mkAddr bank (mkWord hi lo), s) := by
  unfold readLong
  rw [readByte_of_peek h1, ok_bind]
  simp only [readByte_of_peek h2, readByte_of_peek h3, ok_bind]
  rfl

theorem readLong_frame {addr a : Addr} {s t : State} (h : readLong addr s = .ok (a, t)) :
    t = { s with draws := t.draws, bus := { s.bus with device := t.bus.device } } := by
  obtain ⟨lo, hi, bank, u, w, h1, h2, h3, -⟩ := readLong_ok h
  rw [readByte_frame h3, readByte_frame h2, readByte_frame h1]

theorem readW_frame {addr : Addr} {w : Width} {s t : State} {v : Word} (h : readW addr w s = .ok (v, t)) :
    t = { s with draws := t.draws, bus := { s.bus with device := t.bus.device } } := by
  cases w with
  | w8 =>
    simp only [readW] at h
    obtain ⟨⟨b, u⟩, h1, h⟩ := bind_eq_ok.mp h
    cases h
    exact readByte_frame h1
  | w16 => exact readWord_frame h

/-- A value read at a width is below `2^w`. -/
theorem readW_trunc {addr : Addr} {w : Width} {s t : State} {v : Word} (h : readW addr w s = .ok (v, t)) :
    truncW w v = v := by
  cases w with
  | w8 =>
    simp only [readW] at h
    obtain ⟨⟨b, u⟩, h1, h⟩ := bind_eq_ok.mp h
    cases h
    exact truncW_zextByte b
  | w16 => rfl

/-- What a chain of writes leaves: everything but the RAM stores and the device state. -/
structure RamOnly (s t : State) : Prop where
  frame : t = { s with bus := t.bus }
  rom : t.bus.rom = s.bus.rom
  wf : s.bus.wf = true → t.bus.wf = true

theorem RamOnly.refl (s : State) : RamOnly s s := ⟨rfl, rfl, id⟩

theorem RamOnly.trans {s t u : State} (h : RamOnly s t) (h' : RamOnly t u) : RamOnly s u :=
  ⟨by rw [h'.frame, h.frame], h'.rom.trans h.rom, h'.wf ∘ h.wf⟩

theorem writeByte_ramOnly {addr : Addr} {v : Byte} {s t : State} (h : writeByte addr v s = .ok t) : RamOnly s t :=
  ⟨writeByte_frame h, writeByte_rom h, writeByte_wf h⟩

theorem writeW_ramOnly {addr : Addr} {w : Width} {v : Word} {s t : State} (h : writeW addr w v s = .ok t) :
    RamOnly s t := by
  cases w with
  | w8 => exact writeByte_ramOnly h
  | w16 =>
    simp only [writeW] at h
    obtain ⟨u, h1, h2⟩ := bind_eq_ok.mp h
    exact (writeByte_ramOnly h1).trans (writeByte_ramOnly h2)

/-- A write at a width leaves every byte at another place alone. -/
theorem writeW_peek_other {addr b : Addr} {w : Width} {v : Word} {s t : State} (h : writeW addr w v s = .ok t)
    (h0 : apart s b addr = true) (h1 : w = .w16 → apart s b (addr + 1) = true) : peek t b = peek s b := by
  cases w with
  | w8 => exact writeByte_peek_other h h0
  | w16 =>
    simp only [writeW] at h
    obtain ⟨u, h2, h3⟩ := bind_eq_ok.mp h
    have hu := writeByte_frame h2
    rw [writeByte_peek_other h3 (by rw [hu]; exact h1 rfl), writeByte_peek_other h2 h0]

end Sys2Proof.Machine
end

