-- ==== Sys2Proof/Laws/Encoding.lean ====
section
/-! SUPPORT. Decoding what an encoder wrote, once for each shape of operand. A proof about every instruction names its
constructors by shape and closes each with one of these; the forms with byte operands, or none, hold by `rfl`. -/

namespace Sys2Proof

open Sys2Proof.Machine

/-- A claim about every byte, from the 256 of them. -/
theorem forall_byte {P : Byte → Prop} (h : ∀ n : Fin 256, P (BitVec.ofFin n)) (b : Byte) : P b := by
  obtain ⟨n⟩ := b
  exact h n

/-- Two operand bytes are read as the word they were made from. -/
theorem build_word (c : DecodeContext) (op : Byte) (mk : Word → Instr) (v : Word) (rest : List Byte) :
    Row.build c op (.word mk) (wordBytes v ++ rest) = .ok (mk v, rest) := by
  simp [wordBytes, Row.build]

/-- Three operand bytes are read as the address they were made from. -/
theorem build_long (c : DecodeContext) (op : Byte) (mk : Addr → Instr) (a : Addr) (rest : List Byte) :
    Row.build c op (.long mk) (addrBytes a ++ rest) = .ok (mk a, rest) := by
  simp [addrBytes, Row.build]

/-- An immediate constant of the width in force is read back. -/
theorem takeImm_bytes (op : Byte) (mk : Imm → Instr) (k : Imm) (rest : List Byte) (narrow : Bool)
    (h : (k.width == widthOf narrow) = true) : takeImm narrow mk op (k.bytes ++ rest) = .ok (mk k, rest) := by
  cases k <;> cases narrow <;>
    first
      | (simp [Imm.width, widthOf] at h; done)
      | (cases rest <;> rfl)
      | simp [Imm.bytes, takeImm, wordBytes]

/-- The reserved opcode is read back with the signature its behaviour fetches. -/
theorem build_wdm (c : DecodeContext) (op : Byte) (signature : Option Byte) (rest : List Byte)
    (h : (signature.isSome == c.wdmSignature) = true) :
    Row.build c op (.wdm .wdm) (signature.toList ++ rest) = .ok (.wdm signature, rest) := by
  obtain ⟨m8, x8, w⟩ := c
  cases signature <;> cases w <;> first | (simp at h; done) | rfl

/-- An opcode and as many bytes as its row has operands always decode (`30_encoding.md` R73, R80). -/
theorem decode_of_length (c : DecodeContext) (op : Byte) (bytes : List Byte) (h : bytes.length = (rowOf op).length c) :
    ∃ i rest, decode c (op :: bytes) = .ok (i, rest) := by
  obtain ⟨m8, x8, w⟩ := c
  show ∃ i rest, (rowOf op).build _ op bytes = .ok (i, rest)
  generalize rowOf op = row at *
  cases row <;> cases m8 <;> cases x8 <;> cases w <;>
    rcases bytes with _ | ⟨b0, _ | ⟨b1, _ | ⟨b2, _ | ⟨b3, bytes⟩⟩⟩⟩ <;>
    first | exact ⟨_, _, rfl⟩ | simp [Row.length, immLength] at h

end Sys2Proof
end

