-- ==== Sys2Proof/Laws/Operands.lean ====
section
/-! SUPPORT. Once for each resolver operation, stack primitive and fetch: everything it can change when it answers. -/

namespace Sys2Proof.Machine

open Sys2Proof

/-! ## Resolvers -/

/-- Computing an effective address changes at most the count of free values and the device state (`40_addressing_modes.md` R90). -/
theorem effAddr_frame {m : MemMode} {s t : State} {ea : Addr} (h : effAddr m s = .ok (ea, t)) :
    t = { s with draws := t.draws, bus := { s.bus with device := t.bus.device } } := by
  cases m <;> simp only [effAddr] at h
  case dil => exact readLong_frame h
  case dpi | dxi | diy | siy =>
    obtain ⟨⟨p, u⟩, h1, h⟩ := bind_eq_ok.mp h
    cases h
    exact readWord_frame h1
  case dly =>
    obtain ⟨⟨p, u⟩, h1, h⟩ := bind_eq_ok.mp h
    cases h
    exact readLong_frame h1
  all_goals (cases h; rfl)

/-- A load changes at most the count of free values and the device state. -/
theorem load_frame {o : DataOperand} {w : Width} {s t : State} {v : Word} (h : load o w s = .ok (v, t)) :
    t = { s with draws := t.draws, bus := { s.bus with device := t.bus.device } } := by
  cases o with
  | immM k => cases h; rfl
  | immX k => cases h; rfl
  | mem m =>
    simp only [load] at h
    obtain ⟨⟨ea, u⟩, h1, h2⟩ := bind_eq_ok.mp h
    rw [readW_frame h2, effAddr_frame h1]

/-- A loaded value is below `2^w` (`40_addressing_modes.md` R91). -/
theorem load_trunc {o : DataOperand} {w : Width} {s t : State} {v : Word} (h : load o w s = .ok (v, t)) :
    truncW w v = v := by
  cases o with
  | immM k => cases h; exact truncW_truncW w _
  | immX k => cases h; exact truncW_truncW w _
  | mem m =>
    simp only [load] at h
    obtain ⟨⟨ea, u⟩, h1, h2⟩ := bind_eq_ok.mp h
    exact readW_trunc h2

theorem jumpTarget_frame {t : Target} {s u : State} {a : Addr} (h : jumpTarget t s = .ok (a, u)) :
    u = { s with draws := u.draws, bus := { s.bus with device := u.bus.device } } := by
  cases t <;> simp only [jumpTarget] at h
  case ail => exact readLong_frame h
  case abi | axi =>
    obtain ⟨⟨p, w⟩, h1, h⟩ := bind_eq_ok.mp h
    cases h
    exact readWord_frame h1
  all_goals (cases h; rfl)

/-- What a store leaves: the Bus and the count of free values apart, everything. -/
theorem store_ok {m : MemMode} {w : Width} {v : Word} {s t : State} (h : store m w v s = .ok t) :
    ∃ ea u, effAddr m s = .ok (ea, u) ∧ writeW ea w v u = .ok t := by
  unfold store at h
  obtain ⟨⟨ea, u⟩, h1, h2⟩ := bind_eq_ok.mp h
  exact ⟨ea, u, h1, h2⟩

/-! ## The stack -/

/-- The stack pointer after a push of one byte. -/
theorem push8_ok {v : Byte} {s t : State} (h : push8 v s = .ok t) :
    ∃ u, writeByte (bank0 s.sp) v s = .ok u ∧ t = u.writeS (u.sp - 1) := by
  unfold push8 at h
  obtain ⟨u, h1, h⟩ := bind_eq_ok.mp h
  cases h
  exact ⟨u, h1, rfl⟩

theorem push16_ok {v : Word} {s t : State} (h : push16 v s = .ok t) :
    ∃ u, push8 (highByte v) s = .ok u ∧ push8 (lowByte v) u = .ok t := bind_eq_ok.mp h

theorem pull16_ok {v : Word} {s t : State} (h : pull16 s = .ok (v, t)) :
    ∃ lo hi u, pull8 s = .ok (lo, u) ∧ pull8 u = .ok (hi, t) ∧ v = mkWord hi lo := by
  unfold pull16 at h
  obtain ⟨⟨lo, u⟩, h1, h⟩ := bind_eq_ok.mp h
  obtain ⟨⟨hi, w⟩, h2, h⟩ := bind_eq_ok.mp h
  cases h
  exact ⟨lo, hi, u, h1, h2, rfl⟩

theorem pull8_frame {v : Byte} {s t : State} (h : pull8 s = .ok (v, t)) :
    t = { s.writeS (s.sp + 1) with draws := t.draws, bus := { s.bus with device := t.bus.device } } := readByte_frame h

/-- `WriteS` keeps the Emulation invariant (`10_state.md` R25). -/
@[simp] theorem writeS_stackPageOk (s : State) (v : Word) : (s.writeS v).stackPageOk = true := by
  unfold State.stackPageOk State.writeS
  cases s.e <;> simp

/-- What a chain of pushes leaves: everything but the RAM stores and `S`. -/
structure StackOnly (s t : State) : Prop where
  frame : t = { s with bus := t.bus, sp := t.sp }
  rom : t.bus.rom = s.bus.rom
  wf : s.bus.wf = true → t.bus.wf = true
  page : s.stackPageOk = true → t.stackPageOk = true

theorem StackOnly.refl (s : State) : StackOnly s s := ⟨rfl, rfl, id, id⟩

theorem StackOnly.trans {s t u : State} (h : StackOnly s t) (h' : StackOnly t u) : StackOnly s u :=
  ⟨by rw [h'.frame, h.frame], h'.rom.trans h.rom, h'.wf ∘ h.wf, h'.page ∘ h.page⟩

theorem push8_stackOnly {v : Byte} {s t : State} (h : push8 v s = .ok t) : StackOnly s t := by
  obtain ⟨u, h1, rfl⟩ := push8_ok h
  have hr := writeByte_ramOnly h1
  refine ⟨?_, hr.rom, hr.wf, fun _ => writeS_stackPageOk _ _⟩
  rw [hr.frame]
  rfl

theorem push16_stackOnly {v : Word} {s t : State} (h : push16 v s = .ok t) : StackOnly s t := by
  obtain ⟨u, h1, h2⟩ := push16_ok h
  exact (push8_stackOnly h1).trans (push8_stackOnly h2)

theorem pushW_stackOnly {w : Width} {v : Word} {s t : State} (h : pushW w v s = .ok t) : StackOnly s t := by
  cases w with
  | w8 => exact push8_stackOnly h
  | w16 => exact push16_stackOnly h

/-- What a chain of pulls leaves: everything but `S` and the count of free values and the device state. -/
structure PullOnly (s t : State) : Prop where
  frame : t = { s with sp := t.sp, draws := t.draws, bus := { s.bus with device := t.bus.device } }
  page : s.stackPageOk = true → t.stackPageOk = true

theorem PullOnly.trans {s t u : State} (h : PullOnly s t) (h' : PullOnly t u) : PullOnly s u :=
  ⟨by rw [h'.frame, h.frame], h'.page ∘ h.page⟩

theorem pull8_pullOnly {v : Byte} {s t : State} (h : pull8 s = .ok (v, t)) : PullOnly s t := by
  have hf := pull8_frame h
  refine ⟨?_, fun _ => ?_⟩
  · rw [hf]; rfl
  · rw [hf]; exact writeS_stackPageOk s (s.sp + 1)

theorem pull16_pullOnly {v : Word} {s t : State} (h : pull16 s = .ok (v, t)) : PullOnly s t := by
  obtain ⟨lo, hi, u, h1, h2, -⟩ := pull16_ok h
  exact (pull8_pullOnly h1).trans (pull8_pullOnly h2)

theorem pullW_pullOnly {w : Width} {v : Word} {s t : State} (h : pullW w s = .ok (v, t)) : PullOnly s t := by
  cases w with
  | w8 =>
    simp only [pullW] at h
    obtain ⟨⟨b, u⟩, h1, h⟩ := bind_eq_ok.mp h
    cases h
    exact pull8_pullOnly h1
  | w16 => exact pull16_pullOnly h

/-! ## Fetch -/

theorem fetchByte_ok {s t : State} {b : Byte} (h : fetchByte s = .ok (b, t)) :
    ∃ u, readByte (mkAddr s.pb s.pc) s = .ok (b, u) ∧ t = { u with pc := u.pc + 1 } := by
  unfold fetchByte at h
  obtain ⟨⟨c, u⟩, h1, h⟩ := bind_eq_ok.mp h
  cases h
  exact ⟨u, h1, rfl⟩

/-- A fetch changes only `PC` and the count of free values and the device state. -/
theorem fetchByte_frame {s t : State} {b : Byte} (h : fetchByte s = .ok (b, t)) :
    t = { s with pc := s.pc + 1, draws := t.draws, bus := { s.bus with device := t.bus.device } } := by
  obtain ⟨u, h1, rfl⟩ := fetchByte_ok h
  rw [readByte_frame h1]

theorem fetchBytes_frame {n : Nat} {s t : State} {bs : List Byte} (h : fetchBytes n s = .ok (bs, t)) :
    t = { s with pc := s.pc + BitVec.ofNat 16 n, draws := t.draws, bus := { s.bus with device := t.bus.device } } := by
  induction n generalizing s bs with
  | zero => cases h; simp
  | succ n ih =>
    simp only [fetchBytes] at h
    obtain ⟨⟨b, u⟩, h1, h⟩ := bind_eq_ok.mp h
    obtain ⟨⟨cs, w⟩, h2, h⟩ := bind_eq_ok.mp h
    cases h
    have hw := ih h2
    have hu := fetchByte_frame h1
    rw [hw, hu]
    simp only [State.mk.injEq, true_and, and_true]
    rw [BitVec.add_assoc]
    congr 1
    rw [show (1 : Word) = BitVec.ofNat 16 1 from rfl, ← BitVec.ofNat_add]
    congr 1
    omega

theorem fetchBytes_length {n : Nat} {s t : State} {bs : List Byte} (h : fetchBytes n s = .ok (bs, t)) : bs.length = n := by
  induction n generalizing s bs with
  | zero => cases h; rfl
  | succ n ih =>
    obtain ⟨⟨b, u⟩, h1, h⟩ := bind_eq_ok.mp h
    obtain ⟨⟨cs, w⟩, h2, h⟩ := bind_eq_ok.mp h
    cases h
    exact congrArg (· + 1) (ih h2)

theorem fetchInstr_ok {s t : State} {i : Instr} (h : fetchInstr s = .ok (i, t)) :
    ∃ op u bytes rest, fetchByte s = .ok (op, u) ∧
      fetchBytes ((rowOf op).length u.decodeContext) u = .ok (bytes, t) ∧
      decode u.decodeContext (op :: bytes) = .ok (i, rest) := by
  unfold fetchInstr at h
  obtain ⟨⟨op, u⟩, h1, h⟩ := bind_eq_ok.mp h
  obtain ⟨⟨bytes, w⟩, h2, h⟩ := bind_eq_ok.mp h
  refine ⟨op, u, bytes, ?_⟩
  simp only at h h2
  split at h
  · rename_i j rest h3
    cases h
    exact ⟨rest, h1, h2, h3⟩
  · cases h

/-- A fetch changes only `PC` and the count of free values and the device state. -/
theorem fetchInstr_frame {s t : State} {i : Instr} (h : fetchInstr s = .ok (i, t)) :
    t = { s with pc := t.pc, draws := t.draws, bus := { s.bus with device := t.bus.device } } := by
  obtain ⟨op, u, bytes, rest, h1, h2, -⟩ := fetchInstr_ok h
  rw [fetchBytes_frame h2, fetchByte_frame h1]

/-! ## Interrupt entry and return -/

/-- What an interrupt entry leaves: everything but the RAM stores, `S`, `PC`, `PB`, `P.I`, `P.D` and the count of free
values (`60_exceptions.md` R306). -/
structure EntryOnly (s t : State) : Prop where
  frame : t = { s with bus := t.bus, sp := t.sp, pc := t.pc, pb := if s.e then s.pb else 0x00,
                       p := { s.p with i := true, d := false }, draws := t.draws }
  rom : t.bus.rom = s.bus.rom
  wf : s.bus.wf = true → t.bus.wf = true
  page : s.stackPageOk = true → t.stackPageOk = true

theorem interruptEntry_ok {kind : InterruptKind} {retpc : Word} {s t : State}
    (h : interruptEntry kind retpc s = .ok t) :
    ∃ s1 s2 s3 s4 v,
      pushBank s = .ok s1 ∧
      push16 retpc s1 = .ok s2 ∧
      push8 (pushedStatus kind s2.e s2.p.toByte) s2 = .ok s3 ∧
      readWord (vectorOf s3.cfg.vectors kind s3.e) s3.enterHandler = .ok (v, s4) ∧
      t = { s4 with pc := v } := by
  unfold interruptEntry at h
  obtain ⟨s1, h1, h⟩ := bind_eq_ok.mp h
  obtain ⟨s2, h2, h⟩ := bind_eq_ok.mp h
  obtain ⟨s3, h3, h⟩ := bind_eq_ok.mp h
  obtain ⟨⟨v, s4⟩, h4, h⟩ := bind_eq_ok.mp h
  cases h
  exact ⟨s1, s2, s3, s4, v, h1, h2, h3, h4, rfl⟩

theorem interruptEntry_entryOnly {kind : InterruptKind} {retpc : Word} {s t : State}
    (h : interruptEntry kind retpc s = .ok t) : EntryOnly s t := by
  obtain ⟨s1, s2, s3, s4, v, h1, h2, h3, h4, rfl⟩ := interruptEntry_ok h
  have k1 : StackOnly s s1 := by
    unfold pushBank at h1
    split at h1
    · cases h1; exact StackOnly.refl s
    · exact push8_stackOnly h1
  have k3 := (k1.trans (push16_stackOnly h2)).trans (push8_stackOnly h3)
  have k4 := readWord_frame h4
  refine ⟨?_, ?_, ?_, ?_⟩
  · rw [k4, k3.frame]; rfl
  · rw [k4]; exact k3.rom
  · rw [k4]; exact k3.wf
  · rw [k4]; exact k3.page

/-- What a return leaves: everything but `S`, `PC`, `PB`, the flags and the count of free values and the device state. -/
structure ReturnOnly (s t : State) : Prop where
  frame : t = { s with sp := t.sp, pc := t.pc, pb := t.pb, p := t.p, draws := t.draws,
                       bus := { s.bus with device := t.bus.device } }
  bank : s.e = true → t.pb = s.pb
  page : s.stackPageOk = true → t.stackPageOk = true

theorem interruptReturn_returnOnly {s t : State} (h : interruptReturn s = .ok t) : ReturnOnly s t := by
  unfold interruptReturn at h
  obtain ⟨⟨b, s1⟩, h1, h⟩ := bind_eq_ok.mp h
  obtain ⟨⟨v, s2⟩, h2, h⟩ := bind_eq_ok.mp h
  have k1 := pull8_pullOnly h1
  have k2 := pull16_pullOnly h2
  have p2 : s.stackPageOk = true → s2.stackPageOk = true := fun hs => k2.page (k1.page hs)
  simp only at h h2
  split at h
  · rename_i he
    cases h
    refine ⟨?_, fun _ => ?_, p2⟩
    · rw [k2.frame, k1.frame]; rfl
    · rw [k2.frame, k1.frame]; rfl
  · rename_i he
    obtain ⟨⟨bank, s3⟩, h3, h⟩ := bind_eq_ok.mp h
    cases h
    have k3 := pull8_pullOnly h3
    refine ⟨?_, fun hs => ?_, fun hs => k3.page (p2 hs)⟩
    · rw [k3.frame, k2.frame, k1.frame]; rfl
    · exfalso
      apply he
      rw [k2.frame, k1.frame]
      exact hs

end Sys2Proof.Machine
end

