-- ==== Sys2Proof/Laws/Exec.lean ====
section
/-! SUPPORT. `exec` by mnemonic and operand: the 256 arms are 92 meanings on the operand of the instruction. A proof about
`exec` rewrites with `exec_eq_form` and splits on the 92 mnemonics, never on the 256 rows. -/

namespace Sys2Proof.Machine

open Sys2Proof

/-- A meaning on a data operand; no other operand occurs with it. -/
def onData (f : DataOperand → State → Answer) : Operand → State → Answer
  | .data o, s => f o s
  | _, s => .next s

/-- A meaning on a memory operand. -/
def onMem (f : MemMode → State → Answer) : Operand → State → Answer
  | .data (.mem m), s => f m s
  | _, s => .next s

/-- A meaning on a control-transfer operand. -/
def onTarget (f : Target → State → Answer) : Operand → State → Answer
  | .target t, s => f t s
  | _, s => .next s

/-- A meaning on a short displacement. -/
def onRel (f : Byte → State → Answer) : Operand → State → Answer
  | .rel disp, s => f disp s
  | _, s => .next s

/-- A meaning on a long displacement. -/
def onRell (f : Word → State → Answer) : Operand → State → Answer
  | .rell disp, s => f disp s
  | _, s => .next s

/-- A meaning on an 8-bit constant. -/
def onImm8 (f : Byte → State → Answer) : Operand → State → Answer
  | .imm8 k, s => f k s
  | _, s => .next s

/-- A meaning on a signature byte. -/
def onInt (f : Byte → State → Answer) : Operand → State → Answer
  | .stkInt signature, s => f signature s
  | _, s => .next s

/-- A meaning on the operand of `PEA`. -/
def onStkAbs (f : Word → State → Answer) : Operand → State → Answer
  | .stkAbs v, s => f v s
  | _, s => .next s

/-- A meaning on the operand of `PEI`. -/
def onStkDpi (f : Byte → State → Answer) : Operand → State → Answer
  | .stkDpi d, s => f d s
  | _, s => .next s

/-- A meaning on the operand of `PER`. -/
def onStkRell (f : Word → State → Answer) : Operand → State → Answer
  | .stkRell disp, s => f disp s
  | _, s => .next s

/-- A meaning on the operand of `WDM`. -/
def onWdm (f : Option Byte → State → Answer) : Operand → State → Answer
  | .wdm signature, s => f signature s
  | _, s => .next s

/-- A meaning on two banks. -/
def onBlk (f : Byte → Byte → State → Answer) : Operand → State → Answer
  | .blk dst src, s => f dst src s
  | _, s => .next s

/-- A read-modify-write meaning on the accumulator or on memory. -/
def onModify (f : Modifier) : Operand → State → Answer
  | .acc, s => modifyAcc f s
  | .data (.mem m), s => modifyMem f m s
  | _, s => .next s

/-- The meaning of a mnemonic on an operand. -/
def execForm (mn : Mnemonic) (o : Operand) (s : State) : Answer :=
  match mn with
  | .lda => onData opLda o s
  | .ldx => onData opLdx o s
  | .ldy => onData opLdy o s
  | .sta => onMem opSta o s
  | .stx => onMem opStx o s
  | .sty => onMem opSty o s
  | .stz => onMem opStz o s
  | .tax => execTax s
  | .tay => execTay s
  | .txa => execTxa s
  | .tya => execTya s
  | .txy => execTxy s
  | .tyx => execTyx s
  | .tsx => execTsx s
  | .txs => execTxs s
  | .tcd => execTcd s
  | .tdc => execTdc s
  | .tcs => execTcs s
  | .tsc => execTsc s
  | .xba => execXba s
  | .adc => onData opAdc o s
  | .sbc => onData opSbc o s
  | .cmp => onData opCmp o s
  | .cpx => onData opCpx o s
  | .cpy => onData opCpy o s
  | .and => onData opAnd o s
  | .ora => onData opOra o s
  | .eor => onData opEor o s
  | .bit => onData opBit o s
  | .inc => onModify incW o s
  | .dec => onModify decW o s
  | .inx => execInx s
  | .iny => execIny s
  | .dex => execDex s
  | .dey => execDey s
  | .asl => onModify aslW o s
  | .lsr => onModify lsrW o s
  | .rol => onModify rolW o s
  | .ror => onModify rorW o s
  | .tsb => onMem opTsb o s
  | .trb => onMem opTrb o s
  | .bpl => onRel execBpl o s
  | .bmi => onRel execBmi o s
  | .bvc => onRel execBvc o s
  | .bvs => onRel execBvs o s
  | .bcc => onRel execBcc o s
  | .bcs => onRel execBcs o s
  | .bne => onRel execBne o s
  | .beq => onRel execBeq o s
  | .bra => onRel execBra o s
  | .brl => onRell execBrl o s
  | .jmp => onTarget opJmp o s
  | .jml => onTarget opJml o s
  | .jsr => onTarget opJsr o s
  | .jsl => onTarget opJsl o s
  | .rts => execRts s
  | .rtl => execRtl s
  | .pha => execPha s
  | .phx => execPhx s
  | .phy => execPhy s
  | .php => execPhp s
  | .phb => execPhb s
  | .phd => execPhd s
  | .phk => execPhk s
  | .pla => execPla s
  | .plx => execPlx s
  | .ply => execPly s
  | .plp => execPlp s
  | .plb => execPlb s
  | .pld => execPld s
  | .pea => onStkAbs execPea o s
  | .pei => onStkDpi execPei o s
  | .per => onStkRell execPer o s
  | .clc => execClc s
  | .sec => execSec s
  | .cli => execCli s
  | .sei => execSei s
  | .cld => execCld s
  | .sed => execSed s
  | .clv => execClv s
  | .rep => onImm8 execRep o s
  | .sep => onImm8 execSep o s
  | .xce => execXce s
  | .nop => execNop s
  | .wdm => onWdm execWdm o s
  | .mvn => onBlk execMvn o s
  | .mvp => onBlk execMvp o s
  | .brk => onInt execBrk o s
  | .cop => onInt execCop o s
  | .rti => execRti s
  | .wai => execWai s
  | .stp => execStp s

/-- Every arm of `exec` is the meaning of its mnemonic on its operand. -/
theorem exec_eq_form (i : Instr) (s : State) : exec i s = execForm i.mnemonic i.operand s := by
  cases i <;> rfl

end Sys2Proof.Machine
end

