-- ==== Sys2Proof/Laws/PerInstr.lean ====
section
/-! SUPPORT. Per instruction: the table's length of a row is the number of operand bytes the instruction encodes to. -/

namespace Sys2Proof.Laws.RowLength

open Sys2Proof Sys2Proof.Machine

/-- The row of the instruction's opcode has as many operand bytes as the instruction (`30_encoding.md` R74, R75). -/
def Statement (i : Instr) : Prop :=
  ∀ c : DecodeContext, WellFormed c i = true → (rowOf i.opcode).length c = i.operand.bytes.length

theorem imm_length (k : Imm) (narrow : Bool) (h : (k.width == widthOf narrow) = true) :
    immLength narrow = k.bytes.length := by
  cases k <;> cases narrow <;> first | rfl | (simp [Imm.width, widthOf] at h)

theorem wdm_length (signature : Option Byte) (b : Bool) (h : (signature.isSome == b) = true) :
    (if b then 1 else 0) = signature.toList.length := by
  cases signature <;> cases b <;> first | rfl | simp at h

theorem ldaDxi (d : Byte) : Statement (.ldaDxi d) := fun _ _ => rfl
theorem ldaSr (d : Byte) : Statement (.ldaSr d) := fun _ _ => rfl
theorem ldaDp (d : Byte) : Statement (.ldaDp d) := fun _ _ => rfl
theorem ldaDil (d : Byte) : Statement (.ldaDil d) := fun _ _ => rfl
theorem ldaImmM (k : Imm) : Statement (.ldaImmM k) := fun c h => imm_length k c.m8 h
theorem ldaAbs (a : Word) : Statement (.ldaAbs a) := fun _ _ => rfl
theorem ldaAbl (al : Addr) : Statement (.ldaAbl al) := fun _ _ => rfl
theorem ldaDiy (d : Byte) : Statement (.ldaDiy d) := fun _ _ => rfl
theorem ldaDpi (d : Byte) : Statement (.ldaDpi d) := fun _ _ => rfl
theorem ldaSiy (d : Byte) : Statement (.ldaSiy d) := fun _ _ => rfl
theorem ldaDpx (d : Byte) : Statement (.ldaDpx d) := fun _ _ => rfl
theorem ldaDly (d : Byte) : Statement (.ldaDly d) := fun _ _ => rfl
theorem ldaAby (a : Word) : Statement (.ldaAby a) := fun _ _ => rfl
theorem ldaAbx (a : Word) : Statement (.ldaAbx a) := fun _ _ => rfl
theorem ldaAlx (al : Addr) : Statement (.ldaAlx al) := fun _ _ => rfl
theorem ldxImmX (k : Imm) : Statement (.ldxImmX k) := fun c h => imm_length k c.x8 h
theorem ldxDp (d : Byte) : Statement (.ldxDp d) := fun _ _ => rfl
theorem ldxAbs (a : Word) : Statement (.ldxAbs a) := fun _ _ => rfl
theorem ldxDpy (d : Byte) : Statement (.ldxDpy d) := fun _ _ => rfl
theorem ldxAby (a : Word) : Statement (.ldxAby a) := fun _ _ => rfl
theorem ldyImmX (k : Imm) : Statement (.ldyImmX k) := fun c h => imm_length k c.x8 h
theorem ldyDp (d : Byte) : Statement (.ldyDp d) := fun _ _ => rfl
theorem ldyAbs (a : Word) : Statement (.ldyAbs a) := fun _ _ => rfl
theorem ldyDpx (d : Byte) : Statement (.ldyDpx d) := fun _ _ => rfl
theorem ldyAbx (a : Word) : Statement (.ldyAbx a) := fun _ _ => rfl
theorem staDxi (d : Byte) : Statement (.staDxi d) := fun _ _ => rfl
theorem staSr (d : Byte) : Statement (.staSr d) := fun _ _ => rfl
theorem staDp (d : Byte) : Statement (.staDp d) := fun _ _ => rfl
theorem staDil (d : Byte) : Statement (.staDil d) := fun _ _ => rfl
theorem staAbs (a : Word) : Statement (.staAbs a) := fun _ _ => rfl
theorem staAbl (al : Addr) : Statement (.staAbl al) := fun _ _ => rfl
theorem staDiy (d : Byte) : Statement (.staDiy d) := fun _ _ => rfl
theorem staDpi (d : Byte) : Statement (.staDpi d) := fun _ _ => rfl
theorem staSiy (d : Byte) : Statement (.staSiy d) := fun _ _ => rfl
theorem staDpx (d : Byte) : Statement (.staDpx d) := fun _ _ => rfl
theorem staDly (d : Byte) : Statement (.staDly d) := fun _ _ => rfl
theorem staAby (a : Word) : Statement (.staAby a) := fun _ _ => rfl
theorem staAbx (a : Word) : Statement (.staAbx a) := fun _ _ => rfl
theorem staAlx (al : Addr) : Statement (.staAlx al) := fun _ _ => rfl
theorem stxDp (d : Byte) : Statement (.stxDp d) := fun _ _ => rfl
theorem stxAbs (a : Word) : Statement (.stxAbs a) := fun _ _ => rfl
theorem stxDpy (d : Byte) : Statement (.stxDpy d) := fun _ _ => rfl
theorem styDp (d : Byte) : Statement (.styDp d) := fun _ _ => rfl
theorem styAbs (a : Word) : Statement (.styAbs a) := fun _ _ => rfl
theorem styDpx (d : Byte) : Statement (.styDpx d) := fun _ _ => rfl
theorem stzDp (d : Byte) : Statement (.stzDp d) := fun _ _ => rfl
theorem stzDpx (d : Byte) : Statement (.stzDpx d) := fun _ _ => rfl
theorem stzAbs (a : Word) : Statement (.stzAbs a) := fun _ _ => rfl
theorem stzAbx (a : Word) : Statement (.stzAbx a) := fun _ _ => rfl
theorem adcDxi (d : Byte) : Statement (.adcDxi d) := fun _ _ => rfl
theorem adcSr (d : Byte) : Statement (.adcSr d) := fun _ _ => rfl
theorem adcDp (d : Byte) : Statement (.adcDp d) := fun _ _ => rfl
theorem adcDil (d : Byte) : Statement (.adcDil d) := fun _ _ => rfl
theorem adcImmM (k : Imm) : Statement (.adcImmM k) := fun c h => imm_length k c.m8 h
theorem adcAbs (a : Word) : Statement (.adcAbs a) := fun _ _ => rfl
theorem adcAbl (al : Addr) : Statement (.adcAbl al) := fun _ _ => rfl
theorem adcDiy (d : Byte) : Statement (.adcDiy d) := fun _ _ => rfl
theorem adcDpi (d : Byte) : Statement (.adcDpi d) := fun _ _ => rfl
theorem adcSiy (d : Byte) : Statement (.adcSiy d) := fun _ _ => rfl
theorem adcDpx (d : Byte) : Statement (.adcDpx d) := fun _ _ => rfl
theorem adcDly (d : Byte) : Statement (.adcDly d) := fun _ _ => rfl
theorem adcAby (a : Word) : Statement (.adcAby a) := fun _ _ => rfl
theorem adcAbx (a : Word) : Statement (.adcAbx a) := fun _ _ => rfl
theorem adcAlx (al : Addr) : Statement (.adcAlx al) := fun _ _ => rfl
theorem sbcDxi (d : Byte) : Statement (.sbcDxi d) := fun _ _ => rfl
theorem sbcSr (d : Byte) : Statement (.sbcSr d) := fun _ _ => rfl
theorem sbcDp (d : Byte) : Statement (.sbcDp d) := fun _ _ => rfl
theorem sbcDil (d : Byte) : Statement (.sbcDil d) := fun _ _ => rfl
theorem sbcImmM (k : Imm) : Statement (.sbcImmM k) := fun c h => imm_length k c.m8 h
theorem sbcAbs (a : Word) : Statement (.sbcAbs a) := fun _ _ => rfl
theorem sbcAbl (al : Addr) : Statement (.sbcAbl al) := fun _ _ => rfl
theorem sbcDiy (d : Byte) : Statement (.sbcDiy d) := fun _ _ => rfl
theorem sbcDpi (d : Byte) : Statement (.sbcDpi d) := fun _ _ => rfl
theorem sbcSiy (d : Byte) : Statement (.sbcSiy d) := fun _ _ => rfl
theorem sbcDpx (d : Byte) : Statement (.sbcDpx d) := fun _ _ => rfl
theorem sbcDly (d : Byte) : Statement (.sbcDly d) := fun _ _ => rfl
theorem sbcAby (a : Word) : Statement (.sbcAby a) := fun _ _ => rfl
theorem sbcAbx (a : Word) : Statement (.sbcAbx a) := fun _ _ => rfl
theorem sbcAlx (al : Addr) : Statement (.sbcAlx al) := fun _ _ => rfl
theorem cmpDxi (d : Byte) : Statement (.cmpDxi d) := fun _ _ => rfl
theorem cmpSr (d : Byte) : Statement (.cmpSr d) := fun _ _ => rfl
theorem cmpDp (d : Byte) : Statement (.cmpDp d) := fun _ _ => rfl
theorem cmpDil (d : Byte) : Statement (.cmpDil d) := fun _ _ => rfl
theorem cmpImmM (k : Imm) : Statement (.cmpImmM k) := fun c h => imm_length k c.m8 h
theorem cmpAbs (a : Word) : Statement (.cmpAbs a) := fun _ _ => rfl
theorem cmpAbl (al : Addr) : Statement (.cmpAbl al) := fun _ _ => rfl
theorem cmpDiy (d : Byte) : Statement (.cmpDiy d) := fun _ _ => rfl
theorem cmpDpi (d : Byte) : Statement (.cmpDpi d) := fun _ _ => rfl
theorem cmpSiy (d : Byte) : Statement (.cmpSiy d) := fun _ _ => rfl
theorem cmpDpx (d : Byte) : Statement (.cmpDpx d) := fun _ _ => rfl
theorem cmpDly (d : Byte) : Statement (.cmpDly d) := fun _ _ => rfl
theorem cmpAby (a : Word) : Statement (.cmpAby a) := fun _ _ => rfl
theorem cmpAbx (a : Word) : Statement (.cmpAbx a) := fun _ _ => rfl
theorem cmpAlx (al : Addr) : Statement (.cmpAlx al) := fun _ _ => rfl
theorem cpxImmX (k : Imm) : Statement (.cpxImmX k) := fun c h => imm_length k c.x8 h
theorem cpxDp (d : Byte) : Statement (.cpxDp d) := fun _ _ => rfl
theorem cpxAbs (a : Word) : Statement (.cpxAbs a) := fun _ _ => rfl
theorem cpyImmX (k : Imm) : Statement (.cpyImmX k) := fun c h => imm_length k c.x8 h
theorem cpyDp (d : Byte) : Statement (.cpyDp d) := fun _ _ => rfl
theorem cpyAbs (a : Word) : Statement (.cpyAbs a) := fun _ _ => rfl
theorem andDxi (d : Byte) : Statement (.andDxi d) := fun _ _ => rfl
theorem andSr (d : Byte) : Statement (.andSr d) := fun _ _ => rfl
theorem andDp (d : Byte) : Statement (.andDp d) := fun _ _ => rfl
theorem andDil (d : Byte) : Statement (.andDil d) := fun _ _ => rfl
theorem andImmM (k : Imm) : Statement (.andImmM k) := fun c h => imm_length k c.m8 h
theorem andAbs (a : Word) : Statement (.andAbs a) := fun _ _ => rfl
theorem andAbl (al : Addr) : Statement (.andAbl al) := fun _ _ => rfl
theorem andDiy (d : Byte) : Statement (.andDiy d) := fun _ _ => rfl
theorem andDpi (d : Byte) : Statement (.andDpi d) := fun _ _ => rfl
theorem andSiy (d : Byte) : Statement (.andSiy d) := fun _ _ => rfl
theorem andDpx (d : Byte) : Statement (.andDpx d) := fun _ _ => rfl
theorem andDly (d : Byte) : Statement (.andDly d) := fun _ _ => rfl
theorem andAby (a : Word) : Statement (.andAby a) := fun _ _ => rfl
theorem andAbx (a : Word) : Statement (.andAbx a) := fun _ _ => rfl
theorem andAlx (al : Addr) : Statement (.andAlx al) := fun _ _ => rfl
theorem oraDxi (d : Byte) : Statement (.oraDxi d) := fun _ _ => rfl
theorem oraSr (d : Byte) : Statement (.oraSr d) := fun _ _ => rfl
theorem oraDp (d : Byte) : Statement (.oraDp d) := fun _ _ => rfl
theorem oraDil (d : Byte) : Statement (.oraDil d) := fun _ _ => rfl
theorem oraImmM (k : Imm) : Statement (.oraImmM k) := fun c h => imm_length k c.m8 h
theorem oraAbs (a : Word) : Statement (.oraAbs a) := fun _ _ => rfl
theorem oraAbl (al : Addr) : Statement (.oraAbl al) := fun _ _ => rfl
theorem oraDiy (d : Byte) : Statement (.oraDiy d) := fun _ _ => rfl
theorem oraDpi (d : Byte) : Statement (.oraDpi d) := fun _ _ => rfl
theorem oraSiy (d : Byte) : Statement (.oraSiy d) := fun _ _ => rfl
theorem oraDpx (d : Byte) : Statement (.oraDpx d) := fun _ _ => rfl
theorem oraDly (d : Byte) : Statement (.oraDly d) := fun _ _ => rfl
theorem oraAby (a : Word) : Statement (.oraAby a) := fun _ _ => rfl
theorem oraAbx (a : Word) : Statement (.oraAbx a) := fun _ _ => rfl
theorem oraAlx (al : Addr) : Statement (.oraAlx al) := fun _ _ => rfl
theorem eorDxi (d : Byte) : Statement (.eorDxi d) := fun _ _ => rfl
theorem eorSr (d : Byte) : Statement (.eorSr d) := fun _ _ => rfl
theorem eorDp (d : Byte) : Statement (.eorDp d) := fun _ _ => rfl
theorem eorDil (d : Byte) : Statement (.eorDil d) := fun _ _ => rfl
theorem eorImmM (k : Imm) : Statement (.eorImmM k) := fun c h => imm_length k c.m8 h
theorem eorAbs (a : Word) : Statement (.eorAbs a) := fun _ _ => rfl
theorem eorAbl (al : Addr) : Statement (.eorAbl al) := fun _ _ => rfl
theorem eorDiy (d : Byte) : Statement (.eorDiy d) := fun _ _ => rfl
theorem eorDpi (d : Byte) : Statement (.eorDpi d) := fun _ _ => rfl
theorem eorSiy (d : Byte) : Statement (.eorSiy d) := fun _ _ => rfl
theorem eorDpx (d : Byte) : Statement (.eorDpx d) := fun _ _ => rfl
theorem eorDly (d : Byte) : Statement (.eorDly d) := fun _ _ => rfl
theorem eorAby (a : Word) : Statement (.eorAby a) := fun _ _ => rfl
theorem eorAbx (a : Word) : Statement (.eorAbx a) := fun _ _ => rfl
theorem eorAlx (al : Addr) : Statement (.eorAlx al) := fun _ _ => rfl
theorem bitDp (d : Byte) : Statement (.bitDp d) := fun _ _ => rfl
theorem bitAbs (a : Word) : Statement (.bitAbs a) := fun _ _ => rfl
theorem bitDpx (d : Byte) : Statement (.bitDpx d) := fun _ _ => rfl
theorem bitAbx (a : Word) : Statement (.bitAbx a) := fun _ _ => rfl
theorem bitImmM (k : Imm) : Statement (.bitImmM k) := fun c h => imm_length k c.m8 h
theorem incDp (d : Byte) : Statement (.incDp d) := fun _ _ => rfl
theorem incAbs (a : Word) : Statement (.incAbs a) := fun _ _ => rfl
theorem incDpx (d : Byte) : Statement (.incDpx d) := fun _ _ => rfl
theorem incAbx (a : Word) : Statement (.incAbx a) := fun _ _ => rfl
theorem decDp (d : Byte) : Statement (.decDp d) := fun _ _ => rfl
theorem decAbs (a : Word) : Statement (.decAbs a) := fun _ _ => rfl
theorem decDpx (d : Byte) : Statement (.decDpx d) := fun _ _ => rfl
theorem decAbx (a : Word) : Statement (.decAbx a) := fun _ _ => rfl
theorem aslDp (d : Byte) : Statement (.aslDp d) := fun _ _ => rfl
theorem aslAbs (a : Word) : Statement (.aslAbs a) := fun _ _ => rfl
theorem aslDpx (d : Byte) : Statement (.aslDpx d) := fun _ _ => rfl
theorem aslAbx (a : Word) : Statement (.aslAbx a) := fun _ _ => rfl
theorem lsrDp (d : Byte) : Statement (.lsrDp d) := fun _ _ => rfl
theorem lsrAbs (a : Word) : Statement (.lsrAbs a) := fun _ _ => rfl
theorem lsrDpx (d : Byte) : Statement (.lsrDpx d) := fun _ _ => rfl
theorem lsrAbx (a : Word) : Statement (.lsrAbx a) := fun _ _ => rfl
theorem rolDp (d : Byte) : Statement (.rolDp d) := fun _ _ => rfl
theorem rolAbs (a : Word) : Statement (.rolAbs a) := fun _ _ => rfl
theorem rolDpx (d : Byte) : Statement (.rolDpx d) := fun _ _ => rfl
theorem rolAbx (a : Word) : Statement (.rolAbx a) := fun _ _ => rfl
theorem rorDp (d : Byte) : Statement (.rorDp d) := fun _ _ => rfl
theorem rorAbs (a : Word) : Statement (.rorAbs a) := fun _ _ => rfl
theorem rorDpx (d : Byte) : Statement (.rorDpx d) := fun _ _ => rfl
theorem rorAbx (a : Word) : Statement (.rorAbx a) := fun _ _ => rfl
theorem tsbDp (d : Byte) : Statement (.tsbDp d) := fun _ _ => rfl
theorem tsbAbs (a : Word) : Statement (.tsbAbs a) := fun _ _ => rfl
theorem trbDp (d : Byte) : Statement (.trbDp d) := fun _ _ => rfl
theorem trbAbs (a : Word) : Statement (.trbAbs a) := fun _ _ => rfl
theorem bpl (disp : Byte) : Statement (.bpl disp) := fun _ _ => rfl
theorem bmi (disp : Byte) : Statement (.bmi disp) := fun _ _ => rfl
theorem bvc (disp : Byte) : Statement (.bvc disp) := fun _ _ => rfl
theorem bvs (disp : Byte) : Statement (.bvs disp) := fun _ _ => rfl
theorem bcc (disp : Byte) : Statement (.bcc disp) := fun _ _ => rfl
theorem bcs (disp : Byte) : Statement (.bcs disp) := fun _ _ => rfl
theorem bne (disp : Byte) : Statement (.bne disp) := fun _ _ => rfl
theorem beq (disp : Byte) : Statement (.beq disp) := fun _ _ => rfl
theorem bra (disp : Byte) : Statement (.bra disp) := fun _ _ => rfl
theorem brl (disp : Word) : Statement (.brl disp) := fun _ _ => rfl
theorem jmpAbsPb (a : Word) : Statement (.jmpAbsPb a) := fun _ _ => rfl
theorem jmpAbi (a : Word) : Statement (.jmpAbi a) := fun _ _ => rfl
theorem jmpAxi (a : Word) : Statement (.jmpAxi a) := fun _ _ => rfl
theorem jmlAblPc (t : Addr) : Statement (.jmlAblPc t) := fun _ _ => rfl
theorem jmlAil (a : Word) : Statement (.jmlAil a) := fun _ _ => rfl
theorem jsrAbsPb (a : Word) : Statement (.jsrAbsPb a) := fun _ _ => rfl
theorem jsrAxi (a : Word) : Statement (.jsrAxi a) := fun _ _ => rfl
theorem jsl (t : Addr) : Statement (.jsl t) := fun _ _ => rfl
theorem pea (v : Word) : Statement (.pea v) := fun _ _ => rfl
theorem pei (d : Byte) : Statement (.pei d) := fun _ _ => rfl
theorem per (disp : Word) : Statement (.per disp) := fun _ _ => rfl
theorem rep (k : Byte) : Statement (.rep k) := fun _ _ => rfl
theorem sep (k : Byte) : Statement (.sep k) := fun _ _ => rfl
theorem wdm (signature : Option Byte) : Statement (.wdm signature) := fun c h => wdm_length signature c.wdmSignature h
theorem mvn (dst : Byte) (src : Byte) : Statement (.mvn dst src) := fun _ _ => rfl
theorem mvp (dst : Byte) (src : Byte) : Statement (.mvp dst src) := fun _ _ => rfl
theorem brk (signature : Byte) : Statement (.brk signature) := fun _ _ => rfl
theorem cop (signature : Byte) : Statement (.cop signature) := fun _ _ => rfl
theorem tax : Statement .tax := fun _ _ => rfl
theorem tay : Statement .tay := fun _ _ => rfl
theorem txa : Statement .txa := fun _ _ => rfl
theorem tya : Statement .tya := fun _ _ => rfl
theorem txy : Statement .txy := fun _ _ => rfl
theorem tyx : Statement .tyx := fun _ _ => rfl
theorem tsx : Statement .tsx := fun _ _ => rfl
theorem txs : Statement .txs := fun _ _ => rfl
theorem tcd : Statement .tcd := fun _ _ => rfl
theorem tdc : Statement .tdc := fun _ _ => rfl
theorem tcs : Statement .tcs := fun _ _ => rfl
theorem tsc : Statement .tsc := fun _ _ => rfl
theorem xba : Statement .xba := fun _ _ => rfl
theorem incAcc : Statement .incAcc := fun _ _ => rfl
theorem decAcc : Statement .decAcc := fun _ _ => rfl
theorem inx : Statement .inx := fun _ _ => rfl
theorem iny : Statement .iny := fun _ _ => rfl
theorem dex : Statement .dex := fun _ _ => rfl
theorem dey : Statement .dey := fun _ _ => rfl
theorem aslAcc : Statement .aslAcc := fun _ _ => rfl
theorem lsrAcc : Statement .lsrAcc := fun _ _ => rfl
theorem rolAcc : Statement .rolAcc := fun _ _ => rfl
theorem rorAcc : Statement .rorAcc := fun _ _ => rfl
theorem rts : Statement .rts := fun _ _ => rfl
theorem rtl : Statement .rtl := fun _ _ => rfl
theorem pha : Statement .pha := fun _ _ => rfl
theorem phx : Statement .phx := fun _ _ => rfl
theorem phy : Statement .phy := fun _ _ => rfl
theorem php : Statement .php := fun _ _ => rfl
theorem phb : Statement .phb := fun _ _ => rfl
theorem phd : Statement .phd := fun _ _ => rfl
theorem phk : Statement .phk := fun _ _ => rfl
theorem pla : Statement .pla := fun _ _ => rfl
theorem plx : Statement .plx := fun _ _ => rfl
theorem ply : Statement .ply := fun _ _ => rfl
theorem plp : Statement .plp := fun _ _ => rfl
theorem plb : Statement .plb := fun _ _ => rfl
theorem pld : Statement .pld := fun _ _ => rfl
theorem clc : Statement .clc := fun _ _ => rfl
theorem sec : Statement .sec := fun _ _ => rfl
theorem cli : Statement .cli := fun _ _ => rfl
theorem sei : Statement .sei := fun _ _ => rfl
theorem cld : Statement .cld := fun _ _ => rfl
theorem sed : Statement .sed := fun _ _ => rfl
theorem clv : Statement .clv := fun _ _ => rfl
theorem xce : Statement .xce := fun _ _ => rfl
theorem nop : Statement .nop := fun _ _ => rfl
theorem rti : Statement .rti := fun _ _ => rfl
theorem wai : Statement .wai := fun _ _ => rfl
theorem stp : Statement .stp := fun _ _ => rfl

end Sys2Proof.Laws.RowLength
end

