-- ==== Sys2Proof/Laws/Fetch.lean ====
section
/-! SUPPORT. Fetching stored bytes. -/

namespace Sys2Proof.Machine

open Sys2Proof

/-- Bytes stored from offset `j` past the program counter, wrapping inside the bank, are fetched as they lie. -/
theorem fetchBytes_of_peek (s : State) : ∀ (bs : List Byte) (j : Nat),
    (∀ k (h : k < bs.length), peek s (mkAddr s.pb (s.pc + BitVec.ofNat 16 (j + k))) = some bs[k]) →
    fetchBytes bs.length { s with pc := s.pc + BitVec.ofNat 16 j } =
      .ok (bs, { s with pc := s.pc + BitVec.ofNat 16 (j + bs.length) })
  | [], _, _ => rfl
  | b :: bs, j, h => by
    have h0 := h 0 (by simp)
    have hf : fetchByte { s with pc := s.pc + BitVec.ofNat 16 j } =
        .ok (b, { s with pc := s.pc + BitVec.ofNat 16 (j + 1) }) := by
      unfold fetchByte
      have hr : readByte (mkAddr s.pb (s.pc + BitVec.ofNat 16 j)) { s with pc := s.pc + BitVec.ofNat 16 j } =
          .ok (b, { s with pc := s.pc + BitVec.ofNat 16 j }) := readByte_of_peek h0
      simp only [hr, ok_bind, pure_eq_ok]
      congr 3
      rw [BitVec.ofNat_add, BitVec.add_assoc]
      rfl
    have ih := fetchBytes_of_peek s bs (j + 1) (fun k hk => by
      have := h (k + 1) (by simp; omega)
      rw [show j + 1 + k = j + (k + 1) by omega]
      simpa using this)
    simp only [List.length_cons, fetchBytes, hf, ok_bind, ih, pure_eq_ok]
    rw [show j + 1 + bs.length = j + (bs.length + 1) by omega]

end Sys2Proof.Machine
end

