-- ==== Sys2Proof/Laws/Values.lean ====
section
/-! SUPPORT. Values at a width, the direct-page address and the stored words as numbers; what the adder and the complement
are worth. -/

namespace Sys2Proof.Machine

open Sys2Proof

theorem toNat_xV (s : State) : s.xV.toNat = s.xNat := by
  cases he : (s.e || s.p.x) <;> simp [State.xV, State.xNat, State.wX, State.x8, he, widthOf, toNat_truncW, bitsOf]
  all_goals omega

theorem toNat_yV (s : State) : s.yV.toNat = s.yNat := by
  cases he : (s.e || s.p.x) <;> simp [State.yV, State.yNat, State.wX, State.x8, he, widthOf, toNat_truncW, bitsOf]
  all_goals omega

theorem toNat_dEff (s : State) : s.dEff.toNat = s.dNat := by
  unfold State.dEff State.dNat
  cases s.e <;> simp [toNat_mkWord, toNat_highByte]

theorem toNat_dpAddr (s : State) (d : Byte) (idx : Word) : (dpAddr s d idx).toNat = s.dpNat d.toNat idx.toNat := by
  have h1 := toNat_dEff s
  have h2 := s.dEff.isLt
  have h3 := d.isLt
  have h4 := idx.isLt
  unfold dpAddr State.dpNat bank0
  split
  · rename_i h
    simp only [Bool.and_eq_true] at h
    have h5 : s.dNat % 256 = 0 := by unfold State.dNat; rw [if_pos h.1]; omega
    simp only [toNat_mkAddr, BitVec.toNat_add, toNat_zextByte, toNat_lowByte, h1]
    simp
    omega
  · simp only [toNat_mkAddr, BitVec.toNat_add, toNat_zextByte, h1]
    simp

theorem storedWord_some {s : State} {addr : Addr} {v : Word} (h : storedWord s addr = some v) :
    ∃ lo hi, peek s addr = some lo ∧ peek s (addr + 1) = some hi ∧ v = mkWord hi lo := by
  unfold storedWord at h
  split at h
  · rename_i lo hi h1 h2
    cases h
    exact ⟨lo, hi, h1, h2, rfl⟩
  · cases h

theorem readWord_of_storedWord {s : State} {addr : Addr} {v : Word} (h : storedWord s addr = some v) :
    readWord addr s = .ok (v, s) := by
  obtain ⟨lo, hi, h1, h2, rfl⟩ := storedWord_some h
  exact readWord_of_peek h1 h2

theorem readLong_of_storedLong {s : State} {addr a : Addr} (h : storedLong s addr = some a) :
    readLong addr s = .ok (a, s) := by
  unfold storedLong at h
  split at h
  · rename_i lo hi bank h1 h2 h3
    cases h
    exact readLong_of_peek h1 h2 h3
  · cases h

/-- A register write at a width reads only the bits of that width. -/
theorem mergeW_truncW (w : Width) (old v : Word) : mergeW w old (truncW w v) = mergeW w old v := by
  cases w <;> simp [mergeW, truncW]

/-- `SetNZ` reads only the bits of its width. -/
theorem setNZ_truncW (s : State) (v : Word) (w : Width) : s.setNZ (truncW w v) w = s.setNZ v w := by
  unfold State.setNZ
  rw [truncW_truncW]
  congr 2
  cases w <;> simp [topBit, truncW, zextByte, lowByte]

theorem lt_of_truncW {w : Width} {v : Word} (h : truncW w v = v) : v.toNat < 2 ^ bitsOf w := by
  rw [← h, toNat_truncW]
  exact Nat.mod_lt _ (by positivity)

theorem aV_lt (s : State) : s.aV.toNat < 2 ^ bitsOf s.wA := lt_of_truncW (truncW_truncW _ _)

theorem xV_lt (s : State) : s.xV.toNat < 2 ^ bitsOf s.wX := lt_of_truncW (truncW_truncW _ _)

theorem yV_lt (s : State) : s.yV.toNat < 2 ^ bitsOf s.wX := lt_of_truncW (truncW_truncW _ _)

theorem topBit_eq_decide (w : Width) (v : Word) (h : v.toNat < 2 ^ bitsOf w) :
    topBit w v = decide (2 ^ (bitsOf w - 1) ≤ v.toNat) := by
  have hv : v.toNat < 65536 := v.isLt
  cases w <;> simp only [topBit, bitsOf, BitVec.getLsbD, Nat.testBit_eq_decide_div_mod_eq] at *
  all_goals congr 1; simp; omega

theorem toNat_addW (a m : Word) (c : Bool) (w : Width) :
    (addW a m c w).r.toNat = (a.toNat + m.toNat + c.toNat) % 2 ^ bitsOf w := by
  simp only [addW, BitVec.toNat_ofNat]
  cases w <;> simp [bitsOf]
  omega

theorem toNat_notW (w : Width) (m : Word) (h : m.toNat < 2 ^ bitsOf w) :
    (notW w m).toNat = 2 ^ bitsOf w - 1 - m.toNat := by
  simp only [notW, toNat_truncW, BitVec.toNat_not]
  cases w <;> simp [bitsOf] at * <;> omega

end Sys2Proof.Machine
end

