-- ==== Sys2Proof/Laws/Frame.lean ====
section
/-! SUPPORT. Once for all instructions: which registers and flags each mnemonic may change, and that everything else is kept.
The whole-machine claims of a step follow from `exec_keeps` by looking at `changesOf`. -/

namespace Sys2Proof.Machine

open Sys2Proof

/-- What an instruction may change: the registers, `E`, `run` and each flag. -/
structure Changes where
  a : Bool := false
  x : Bool := false
  y : Bool := false
  sp : Bool := false
  d : Bool := false
  db : Bool := false
  pb : Bool := false
  pc : Bool := false
  e : Bool := false
  run : Bool := false
  fc : Bool := false
  fz : Bool := false
  fi : Bool := false
  fd : Bool := false
  fx : Bool := false
  fm : Bool := false
  fv : Bool := false
  fn : Bool := false

/-- `t` differs from `s` only where `k` allows; the parameters and the image are as they were, and the canonical form of
memory and the Emulation invariant of `S` are kept. -/
structure Keeps (k : Changes) (s t : State) : Prop where
  a : k.a = false → t.a = s.a
  x : k.x = false → t.x = s.x
  y : k.y = false → t.y = s.y
  sp : k.sp = false → t.sp = s.sp
  d : k.d = false → t.d = s.d
  db : k.db = false → t.db = s.db
  pb : k.pb = false → t.pb = s.pb
  pc : k.pc = false → t.pc = s.pc
  e : k.e = false → t.e = s.e
  run : k.run = false → t.run = s.run
  cfg : t.cfg = s.cfg
  rom : t.bus.rom = s.bus.rom
  wf : s.bus.wf = true → t.bus.wf = true
  page : s.stackPageOk = true → t.stackPageOk = true
  fc : k.fc = false → t.p.c = s.p.c
  fz : k.fz = false → t.p.z = s.p.z
  fi : k.fi = false → t.p.i = s.p.i
  fd : k.fd = false → t.p.d = s.p.d
  fx : k.fx = false → t.p.x = s.p.x
  fm : k.fm = false → t.p.m = s.p.m
  fv : k.fv = false → t.p.v = s.p.v
  fn : k.fn = false → t.p.n = s.p.n

/-- The negative and zero flags. -/
def Changes.nz : Changes := { fz := true, fn := true }

/-- All eight flags. -/
def Changes.flags : Changes :=
  { fc := true, fz := true, fi := true, fd := true, fx := true, fm := true, fv := true, fn := true }

/-- What each mnemonic may change; `acc` says that the operand is the accumulator, `e` that `E` is set. -/
def changesOf (mn : Mnemonic) (acc e : Bool) : Changes :=
  match mn with
  | .lda | .and | .ora | .eor | .txa | .tya | .tdc | .tsc | .xba => { Changes.nz with a := true }
  | .pla => { Changes.nz with a := true, sp := true }
  | .adc | .sbc => { Changes.nz with a := true, fc := true, fv := true }
  | .ldx | .inx | .dex | .tax | .tyx | .tsx => { Changes.nz with x := true }
  | .plx => { Changes.nz with x := true, sp := true }
  | .ldy | .iny | .dey | .tay | .txy => { Changes.nz with y := true }
  | .ply => { Changes.nz with y := true, sp := true }
  | .sta | .stx | .sty | .stz | .nop | .wdm => {}
  | .txs | .tcs => { sp := true }
  | .tcd => { Changes.nz with d := true }
  | .cmp | .cpx | .cpy => { Changes.nz with fc := true }
  | .bit => { Changes.nz with fv := true }
  | .inc | .dec => { Changes.nz with a := acc }
  | .asl | .lsr | .rol | .ror => { Changes.nz with a := acc, fc := true }
  | .tsb | .trb => { fz := true }
  | .bpl | .bmi | .bvc | .bvs | .bcc | .bcs | .bne | .beq | .bra | .brl | .jmp => { pc := true }
  | .jml => { pc := true, pb := true }
  | .jsr => { pc := true, sp := true }
  | .jsl => { pc := true, pb := true, sp := true }
  | .rts => { pc := true, sp := true }
  | .rtl => { pc := true, pb := true, sp := true }
  | .pha | .phx | .phy | .php | .phb | .phd | .phk | .pea | .pei | .per => { sp := true }
  | .plp => { Changes.flags with sp := true }
  | .plb => { Changes.nz with sp := true, db := true }
  | .pld => { Changes.nz with sp := true, d := true }
  | .clc | .sec => { fc := true }
  | .cli | .sei => { fi := true }
  | .cld | .sed => { fd := true }
  | .clv => { fv := true }
  | .rep | .sep => Changes.flags
  | .xce => { sp := true, e := true, fc := true }
  | .mvn | .mvp => { a := true, x := true, y := true, db := true, pc := true }
  | .brk | .cop => { sp := true, pc := true, pb := !e, fi := true, fd := true }
  | .rti => { Changes.flags with sp := true, pc := true, pb := !e }
  | .wai | .stp => { run := true }

theorem stackPageOk_of_eq {s t : State} (h1 : t.e = s.e) (h2 : t.sp = s.sp) :
    s.stackPageOk = true → t.stackPageOk = true := by
  unfold State.stackPageOk; rw [h1, h2]; exact id

theorem keeps_of_draws {s t : State}
    (h : t = { s with draws := t.draws, bus := { s.bus with device := t.bus.device } }) : Keeps {} s t := by
  rw [h]; constructor <;> intros <;> first | rfl | assumption

theorem Keeps.trans {k : Changes} {s t u : State} (h : Keeps {} s t) (h' : Keeps k t u) : Keeps k s u := by
  constructor
  case cfg => rw [h'.cfg, h.cfg]
  case rom => rw [h'.rom, h.rom]
  case wf => exact h'.wf ∘ h.wf
  case page => exact h'.page ∘ h.page
  case a => intro z; rw [h'.a z, h.a rfl]
  case x => intro z; rw [h'.x z, h.x rfl]
  case y => intro z; rw [h'.y z, h.y rfl]
  case sp => intro z; rw [h'.sp z, h.sp rfl]
  case d => intro z; rw [h'.d z, h.d rfl]
  case db => intro z; rw [h'.db z, h.db rfl]
  case pb => intro z; rw [h'.pb z, h.pb rfl]
  case pc => intro z; rw [h'.pc z, h.pc rfl]
  case e => intro z; rw [h'.e z, h.e rfl]
  case run => intro z; rw [h'.run z, h.run rfl]
  case fc => intro z; rw [h'.fc z, h.fc rfl]
  case fz => intro z; rw [h'.fz z, h.fz rfl]
  case fi => intro z; rw [h'.fi z, h.fi rfl]
  case fd => intro z; rw [h'.fd z, h.fd rfl]
  case fx => intro z; rw [h'.fx z, h.fx rfl]
  case fm => intro z; rw [h'.fm z, h.fm rfl]
  case fv => intro z; rw [h'.fv z, h.fv rfl]
  case fn => intro z; rw [h'.fn z, h.fn rfl]

theorem keeps_of_branch {c : Bool} {disp : Byte} {s t : State} (h : branch c disp s = .next t) : Keeps {pc := true} s t := by
  unfold branch at h; cases h
  cases c <;> (constructor <;> intros <;> first | rfl | assumption | contradiction)

theorem keeps_of_ramOnly {s t : State} (h : RamOnly s t) : Keeps {} s t := by
  have f := h.frame
  constructor
  case rom => exact h.rom
  case wf => exact h.wf
  case page => exact stackPageOk_of_eq (by rw [f]) (by rw [f])
  all_goals (intros; rw [f])

theorem keeps_of_stackOnly {s t : State} (h : StackOnly s t) : Keeps {sp := true} s t := by
  have f := h.frame
  constructor
  case rom => exact h.rom
  case wf => exact h.wf
  case page => exact h.page
  all_goals (intros; first | contradiction | rw [f])

theorem keeps_of_pullOnly {s t : State} (h : PullOnly s t) : Keeps {sp := true} s t := by
  have f := h.frame
  constructor
  case rom => rw [f]
  case wf => rw [f]; exact id
  case page => exact h.page
  all_goals (intros; first | contradiction | rw [f])

theorem Keeps.afterStack {k : Changes} (hk : k.sp = true) {s t u : State} (h : Keeps {sp := true} s t)
    (h' : Keeps k t u) : Keeps k s u := by
  constructor
  case cfg => rw [h'.cfg, h.cfg]
  case rom => rw [h'.rom, h.rom]
  case wf => exact h'.wf ∘ h.wf
  case page => exact h'.page ∘ h.page
  case sp => intro z; rw [hk] at z; cases z
  case a => intro z; rw [h'.a z, h.a rfl]
  case x => intro z; rw [h'.x z, h.x rfl]
  case y => intro z; rw [h'.y z, h.y rfl]
  case d => intro z; rw [h'.d z, h.d rfl]
  case db => intro z; rw [h'.db z, h.db rfl]
  case pb => intro z; rw [h'.pb z, h.pb rfl]
  case pc => intro z; rw [h'.pc z, h.pc rfl]
  case e => intro z; rw [h'.e z, h.e rfl]
  case run => intro z; rw [h'.run z, h.run rfl]
  case fc => intro z; rw [h'.fc z, h.fc rfl]
  case fz => intro z; rw [h'.fz z, h.fz rfl]
  case fi => intro z; rw [h'.fi z, h.fi rfl]
  case fd => intro z; rw [h'.fd z, h.fd rfl]
  case fx => intro z; rw [h'.fx z, h.fx rfl]
  case fm => intro z; rw [h'.fm z, h.fm rfl]
  case fv => intro z; rw [h'.fv z, h.fv rfl]
  case fn => intro z; rw [h'.fn z, h.fn rfl]

theorem ok_of_finish {m : Except Stop State} {t : State} (h : finish m = .next t) : m = .ok t := finish_eq_next.mp h

/-- An instruction that loads its operand and then updates the state. -/
theorem keeps_of_load (f : DataOperand → State → Answer) (k : Changes) (w : State → Width)
    (g : Width → Word → State → State)
   (hf : ∀ o s, f o s = finish (do let (v, u) ← load o (w s) s; pure (g (w s) v u)))
   (hg : ∀ w v u, Keeps k u (g w v u)) {o : Operand} {s t : State} (ho : ∃ d, o = .data d)
    (h : onData f o s = .next t) : Keeps k s t := by
  obtain ⟨d, rfl⟩ := ho
  simp only [onData, hf] at h
  obtain ⟨⟨v, u⟩, h1, h⟩ := bind_eq_ok.mp (ok_of_finish h)
  cases h
  exact (keeps_of_draws (load_frame h1)).trans (hg _ _ _)

/-- The operand shapes of each mnemonic. -/
theorem operand_of_mnemonic (i : Instr) : (match i.mnemonic with
   | .lda | .ldx | .ldy | .adc | .sbc | .cmp | .cpx | .cpy | .and | .ora | .eor | .bit => ∃ d, i.operand = .data d
   | .sta | .stx | .sty | .stz | .tsb | .trb => ∃ m, i.operand = .data (.mem m)
   | .inc | .dec | .asl | .lsr | .rol | .ror => i.operand = .acc ∨ ∃ m, i.operand = .data (.mem m)
   | .jmp | .jml | .jsr | .jsl => ∃ t, i.operand = .target t
   | .bpl | .bmi | .bvc | .bvs | .bcc | .bcs | .bne | .beq | .bra => ∃ d, i.operand = .rel d
   | .brl => ∃ d, i.operand = .rell d
   | .rep | .sep => ∃ d, i.operand = .imm8 d
   | .pea => ∃ d, i.operand = .stkAbs d
   | .pei => ∃ d, i.operand = .stkDpi d
   | .per => ∃ d, i.operand = .stkRell d
   | .wdm => ∃ d, i.operand = .wdm d
   | .mvn | .mvp => ∃ d e, i.operand = .blk d e
   | .brk | .cop => ∃ d, i.operand = .stkInt d
   | _ => (∀ m, i.operand ≠ .data m) ∧ i.operand ≠ .acc ∧ ∀ d e, i.operand ≠ .blk d e : Prop) := by
  cases i <;> first
    | exact ⟨_, rfl⟩
    | exact Or.inr ⟨_, rfl⟩
    | exact Or.inl rfl
    | exact ⟨_, _, rfl⟩
    | exact ⟨fun _ h => Operand.noConfusion h, fun h => Operand.noConfusion h, fun _ _ h => Operand.noConfusion h⟩

theorem keeps_of_push {m : Except Stop State} {s t : State} (H : ∀ t, m = .ok t → StackOnly s t) (h : finish m = .next t) :
    Keeps {sp := true} s t :=
  keeps_of_stackOnly (H _ (ok_of_finish h))

set_option maxHeartbeats 1000000 in
/-- Everything outside its own changes is kept by every instruction that answers a next state. -/
theorem exec_keeps (i : Instr) (s t : State) (h : exec i s = .next t) :
    Keeps (changesOf i.mnemonic (i.operand == .acc) s.e) s t := by
  have ho := operand_of_mnemonic i
  rw [exec_eq_form] at h
  generalize i.operand = o at *
  generalize i.mnemonic = mn at *
  cases mn <;> simp only [execForm] at h <;> simp only [changesOf] <;> simp only at ho
  case lda =>
    exact keeps_of_load opLda _ State.wA (fun w v u => (u.writeA v).setNZ v w) (fun _ _ => rfl)
      (by intro w v u; constructor <;> intros <;> first | rfl | assumption | contradiction) ho h
  case and =>
    exact keeps_of_load opAnd _ State.wA (fun w v u => (u.writeA (u.aV &&& v)).setNZ (u.aV &&& v) w) (fun _ _ => rfl)
      (by intro w v u; constructor <;> intros <;> first | rfl | assumption | contradiction) ho h
  case ora =>
    exact keeps_of_load opOra _ State.wA (fun w v u => (u.writeA (u.aV ||| v)).setNZ (u.aV ||| v) w) (fun _ _ => rfl)
      (by intro w v u; constructor <;> intros <;> first | rfl | assumption | contradiction) ho h
  case eor =>
    exact keeps_of_load opEor _ State.wA (fun w v u => (u.writeA (u.aV ^^^ v)).setNZ (u.aV ^^^ v) w) (fun _ _ => rfl)
      (by intro w v u; constructor <;> intros <;> first | rfl | assumption | contradiction) ho h
  case ldx =>
    exact keeps_of_load opLdx _ State.wX (fun w v u => (u.writeX v).setNZ v w) (fun _ _ => rfl)
      (by intro w v u; constructor <;> intros <;> first | rfl | assumption | contradiction) ho h
  case ldy =>
    exact keeps_of_load opLdy _ State.wX (fun w v u => (u.writeY v).setNZ v w) (fun _ _ => rfl)
      (by intro w v u; constructor <;> intros <;> first | rfl | assumption | contradiction) ho h
  case cmp =>
    exact keeps_of_load opCmp _ State.wA (fun w v u => u.writeCompare u.aV v w) (fun _ _ => rfl)
      (by intro w v u; constructor <;> intros <;> first | rfl | assumption | contradiction) ho h
  case cpx =>
    exact keeps_of_load opCpx _ State.wX (fun w v u => u.writeCompare u.xV v w) (fun _ _ => rfl)
      (by intro w v u; constructor <;> intros <;> first | rfl | assumption | contradiction) ho h
  case cpy =>
    exact keeps_of_load opCpy _ State.wX (fun w v u => u.writeCompare u.yV v w) (fun _ _ => rfl)
      (by intro w v u; constructor <;> intros <;> first | rfl | assumption | contradiction) ho h
  case adc =>
    obtain ⟨d, rfl⟩ := ho
    simp only [onData, opAdc] at h
    obtain ⟨_, hc, h⟩ := bind_eq_ok.mp (ok_of_finish h)
    obtain ⟨⟨v, u⟩, h1, h⟩ := bind_eq_ok.mp h
    cases h
    refine (keeps_of_draws (load_frame h1)).trans ?_
    constructor <;> intros <;> first | rfl | assumption | contradiction
  case sbc =>
    obtain ⟨d, rfl⟩ := ho
    simp only [onData, opSbc] at h
    obtain ⟨_, hc, h⟩ := bind_eq_ok.mp (ok_of_finish h)
    obtain ⟨⟨v, u⟩, h1, h⟩ := bind_eq_ok.mp h
    cases h
    refine (keeps_of_draws (load_frame h1)).trans ?_
    constructor <;> intros <;> first | rfl | assumption | contradiction
  case bit =>
    obtain ⟨d, rfl⟩ := ho
    simp only [onData, opBit] at h
    obtain ⟨⟨v, u⟩, h1, h⟩ := bind_eq_ok.mp (ok_of_finish h)
    refine (keeps_of_draws (load_frame h1)).trans ?_
    cases d <;> cases h <;> constructor <;> intros <;> first | rfl | assumption | contradiction
  case sta | stx | sty | stz =>
    all_goals
      obtain ⟨m, rfl⟩ := ho
      simp only [onMem, opSta, opStx, opSty, opStz] at h
      obtain ⟨ea, u, h1, h2⟩ := store_ok (ok_of_finish h)
      exact (keeps_of_draws (effAddr_frame h1)).trans (keeps_of_ramOnly (writeW_ramOnly h2))
  case tsb | trb =>
    all_goals
      obtain ⟨m, rfl⟩ := ho
      simp only [onMem, opTsb, opTrb, testModify] at h
      obtain ⟨⟨ea, u⟩, h1, h⟩ := bind_eq_ok.mp (ok_of_finish h)
      obtain ⟨⟨v, x⟩, h2, h⟩ := bind_eq_ok.mp h
      obtain ⟨y, h3, h⟩ := bind_eq_ok.mp h
      cases h
      refine ((keeps_of_draws (effAddr_frame h1)).trans
        ((keeps_of_draws (readW_frame h2)).trans (keeps_of_ramOnly (writeW_ramOnly h3)))).trans ?_
      constructor <;> intros <;> first | rfl | assumption | contradiction
  case inc | dec | asl | lsr | rol | ror =>
    all_goals
      rcases ho with rfl | ⟨m, rfl⟩
      · cases h
        constructor <;> intros <;> first | rfl | assumption | contradiction
      · simp only [onModify, modifyMem] at h
        obtain ⟨⟨ea, u⟩, h1, h⟩ := bind_eq_ok.mp (ok_of_finish h)
        obtain ⟨⟨v, x⟩, h2, h⟩ := bind_eq_ok.mp h
        obtain ⟨y, h3, h⟩ := bind_eq_ok.mp h
        cases h
        have fy : y.p = x.p := by rw [(writeW_ramOnly h3).frame]
        refine ((keeps_of_draws (effAddr_frame h1)).trans
          ((keeps_of_draws (readW_frame h2)).trans (keeps_of_ramOnly (writeW_ramOnly h3)))).trans ?_
        constructor <;> intros <;> first | rfl | assumption | contradiction | (show x.p.c = y.p.c; rw [fy])
  case bpl | bmi | bvc | bvs | bcc | bcs | bne | beq | bra =>
    all_goals
      obtain ⟨d, rfl⟩ := ho
      exact keeps_of_branch h
  case brl =>
    obtain ⟨d, rfl⟩ := ho
    cases h
    constructor <;> intros <;> first | rfl | assumption | contradiction
  case jmp | jml =>
    all_goals
      obtain ⟨d, rfl⟩ := ho
      simp only [onTarget, opJmp, opJml] at h
      obtain ⟨⟨ea, u⟩, h1, h⟩ := bind_eq_ok.mp (ok_of_finish h)
      cases h
      refine (keeps_of_draws (jumpTarget_frame h1)).trans ?_
      constructor <;> intros <;> first | rfl | assumption | contradiction
  case jsr =>
    obtain ⟨d, rfl⟩ := ho
    simp only [onTarget, opJsr] at h
    obtain ⟨u, h1, h⟩ := bind_eq_ok.mp (ok_of_finish h)
    obtain ⟨⟨ea, x⟩, h2, h⟩ := bind_eq_ok.mp h
    cases h
    refine Keeps.afterStack rfl (keeps_of_stackOnly (push16_stackOnly h1)) ((keeps_of_draws (jumpTarget_frame h2)).trans ?_)
    constructor <;> intros <;> first | rfl | assumption | contradiction
  case jsl =>
    obtain ⟨d, rfl⟩ := ho
    simp only [onTarget, opJsl] at h
    obtain ⟨u, h1, h⟩ := bind_eq_ok.mp (ok_of_finish h)
    obtain ⟨u2, h1', h⟩ := bind_eq_ok.mp h
    obtain ⟨⟨ea, x⟩, h2, h⟩ := bind_eq_ok.mp h
    cases h
    refine Keeps.afterStack rfl (keeps_of_stackOnly (push8_stackOnly h1)) ?_
    refine Keeps.afterStack rfl (keeps_of_stackOnly (push16_stackOnly h1')) ?_
    refine (keeps_of_draws (jumpTarget_frame h2)).trans ?_
    constructor <;> intros <;> first | rfl | assumption | contradiction
  case rts =>
    simp only [execRts] at h
    obtain ⟨⟨v, u⟩, h1, h⟩ := bind_eq_ok.mp (ok_of_finish h)
    cases h
    refine Keeps.afterStack rfl (keeps_of_pullOnly (pull16_pullOnly h1)) ?_
    constructor <;> intros <;> first | rfl | assumption | contradiction
  case rtl =>
    simp only [execRtl] at h
    obtain ⟨⟨v, u⟩, h1, h⟩ := bind_eq_ok.mp (ok_of_finish h)
    obtain ⟨⟨v2, u2⟩, h2, h⟩ := bind_eq_ok.mp h
    cases h
    refine Keeps.afterStack rfl (keeps_of_pullOnly (pull16_pullOnly h1)) ?_
    have f2 := (pull8_pullOnly h2)
    have f := f2.frame
    constructor
    case rom => show u2.bus.rom = _; rw [f]
    case wf => show _ → u2.bus.wf = _; rw [f]; exact id
    case page => exact f2.page
    all_goals (intros; first | contradiction | (dsimp only; rw [f]))
  case pha | phx | phy =>
    all_goals exact keeps_of_push (fun t h => pushW_stackOnly h) h
  case php | phb | phk =>
    all_goals exact keeps_of_push (fun t h => push8_stackOnly h) h
  case phd => exact keeps_of_push (fun t h => push16_stackOnly h) h
  case pea | per =>
    all_goals
      obtain ⟨d, rfl⟩ := ho
      exact keeps_of_push (fun t h => push16_stackOnly h) h
  case pei =>
    obtain ⟨d, rfl⟩ := ho
    simp only [onStkDpi, execPei] at h
    obtain ⟨⟨v, u⟩, h1, h⟩ := bind_eq_ok.mp (ok_of_finish h)
    exact (keeps_of_draws (readWord_frame h1)).trans (keeps_of_stackOnly (push16_stackOnly h))
  case pla | plx | ply =>
    all_goals
      simp only [execPla, execPlx, execPly] at h
      obtain ⟨⟨v, u⟩, h1, h⟩ := bind_eq_ok.mp (ok_of_finish h)
      cases h
      refine Keeps.afterStack rfl (keeps_of_pullOnly (pullW_pullOnly h1)) ?_
      constructor <;> intros <;> first | rfl | assumption | contradiction
  case plp | plb =>
    all_goals
      simp only [execPlp, execPlb] at h
      obtain ⟨⟨v, u⟩, h1, h⟩ := bind_eq_ok.mp (ok_of_finish h)
      cases h
      refine Keeps.afterStack rfl (keeps_of_pullOnly (pull8_pullOnly h1)) ?_
      constructor <;> intros <;> first | rfl | assumption | contradiction
  case pld =>
    simp only [execPld] at h
    obtain ⟨⟨v, u⟩, h1, h⟩ := bind_eq_ok.mp (ok_of_finish h)
    cases h
    refine Keeps.afterStack rfl (keeps_of_pullOnly (pull16_pullOnly h1)) ?_
    constructor <;> intros <;> first | rfl | assumption | contradiction
  case rep | sep =>
    all_goals
      obtain ⟨d, rfl⟩ := ho
      cases h
      constructor <;> intros <;> first | rfl | assumption | contradiction
  case xce =>
    simp only [execXce] at h
    cases hc : s.p.c <;> simp [hc] at h <;> subst h <;> constructor <;> intros <;>
      first | rfl | contradiction | (exact writeS_stackPageOk _ _) | assumption
  case wdm =>
    obtain ⟨d, rfl⟩ := ho
    simp only [onWdm, execWdm] at h
    split at h
    · cases h
    · cases h
      constructor <;> intros <;> first | rfl | assumption
  case mvn | mvp =>
    all_goals
      obtain ⟨d, e, rfl⟩ := ho
      simp only [onBlk, execMvn, execMvp, blockMove] at h
      obtain ⟨⟨v, u⟩, h1, h⟩ := bind_eq_ok.mp (ok_of_finish h)
      obtain ⟨x, h3, h⟩ := bind_eq_ok.mp h
      refine ((keeps_of_draws (readByte_frame h1)).trans (keeps_of_ramOnly (writeByte_ramOnly h3))).trans ?_
      cases h
      split <;> constructor <;> intros <;> first | rfl | assumption | contradiction
  case brk | cop =>
    all_goals
      obtain ⟨d, rfl⟩ := ho
      have E := interruptEntry_entryOnly (ok_of_finish h)
      have f := E.frame
      constructor
      case rom => exact E.rom
      case wf => exact E.wf
      case page => exact E.page
      case pb => intro hz; rw [f]; simp only [Bool.not_eq_false'] at hz; simp [hz]
      all_goals (intros; first | contradiction | (rw [f]))
  case rti =>
      have E := interruptReturn_returnOnly (ok_of_finish h)
      have f := E.frame
      constructor
      case rom => rw [f]
      case wf => rw [f]; exact id
      case page => exact E.page
      case pb => intro hz; exact E.bank (by simpa using hz)
      all_goals (intros; first | contradiction | (rw [f]))
  case txs | tcs =>
    all_goals
      cases h
      constructor <;> intros <;> first | rfl | (exact writeS_stackPageOk _ _) | assumption | contradiction
  all_goals
    cases h
    constructor <;> intros <;> first | rfl | assumption | contradiction

end Sys2Proof.Machine
end

