-- ==== Sys2Proof/Laws/Stack.lean ====
section
/-! SUPPORT. Chains of pushes to RAM, and pulling them back: which byte lies in which slot, and what nothing touches. -/

namespace Sys2Proof.Machine

open Sys2Proof

theorem apart_of_cfg {s t : State} (h : t.cfg = s.cfg) (a b : Addr) : apart t a b = apart s a b := by
  unfold apart
  rw [h]

theorem isRam_of_cfg {s t : State} (h : t.cfg = s.cfg) (a : Addr) : isRam t a = isRam s a := by
  unfold isRam
  rw [h]

/-- A push to RAM answers. -/
theorem push8_of_isRam (v : Byte) (s : State) (h : isRam s (bank0 s.sp) = true) :
    ∃ t, push8 v s = .ok t ∧ t = { s with bus := t.bus, sp := pushSlot s 1 } ∧
      (s.bus.wf = true → peek t (bank0 s.sp) = some v ∧ t.bus.wf = true) ∧
      (∀ b, apart s b (bank0 s.sp) = true → peek t b = peek s b) := by
  obtain ⟨u, hu⟩ : ∃ u, writeByte (bank0 s.sp) v s = .ok u := ⟨_, writeByte_of_isRam _ h⟩
  have hf := writeByte_frame hu
  refine ⟨u.writeS (u.sp - 1), by simp only [push8, hu, ok_bind, pure_eq_ok], ?_, fun hw => ⟨?_, ?_⟩, fun b hb => ?_⟩
  · rw [hf]; rfl
  · show peek u _ = _; exact writeByte_peek_same hu h hw
  · show u.bus.wf = _; exact writeByte_wf hu hw
  · show peek u _ = _; exact writeByte_peek_other hu hb

theorem pushSlot_add (s t : State) (k : Nat) (h : t = { s with bus := t.bus, sp := pushSlot s k }) :
    ∀ j, pushSlot t j = pushSlot s (k + j)
  | 0 => by rw [h]; rfl
  | j + 1 => by
    have ih := pushSlot_add s t k h j
    show (t.writeS (pushSlot t j - 1)).sp = (s.writeS (pushSlot s (k + j) - 1)).sp
    rw [ih, h]
    rfl

/-- `t` is `s` after pushing the bytes `bs`, the first one highest. -/
structure Pushed (s : State) (bs : List Byte) (t : State) : Prop where
  frame : t = { s with bus := t.bus, sp := pushSlot s bs.length }
  wf : t.bus.wf = true
  slot : ∀ k (h : k < bs.length), peek t (bank0 (pushSlot s k)) = some bs[k]
  other : ∀ b, (∀ k, k < bs.length → apart s b (bank0 (pushSlot s k)) = true) → peek t b = peek s b

theorem Pushed.nil {s : State} (h : s.bus.wf = true) : Pushed s [] s :=
  ⟨rfl, h, fun _ h => absurd h (by simp), fun _ _ => rfl⟩

/-- One more push, where the first `n` slots are RAM and apart. -/
theorem Pushed.snoc {s t : State} {bs : List Byte} (P : Pushed s bs t) (b : Byte) (n : Nat) (hn : bs.length < n)
    (hroom : stackRoom s n) : ∃ u, push8 b t = .ok u ∧ Pushed s (bs ++ [b]) u := by
  have hc : t.cfg = s.cfg := by rw [P.frame]
  have hsp : t.sp = pushSlot s bs.length := by rw [P.frame]
  have hr : isRam t (bank0 t.sp) = true := by rw [isRam_of_cfg hc, hsp]; exact hroom.1 _ hn
  obtain ⟨u, h1, h2, h3, h4⟩ := push8_of_isRam b t hr
  have h5 : pushSlot t 1 = pushSlot s (bs.length + 1) := pushSlot_add s t _ P.frame 1
  refine ⟨u, h1, ?_, (h3 P.wf).2, ?_, ?_⟩
  · rw [h2, P.frame]
    simp only [List.length_append, List.length_singleton]
    rw [← h5, P.frame]
  · intro k hk
    simp at hk
    by_cases hkk : k = bs.length
    · subst hkk
      rw [← hsp, (h3 P.wf).1]
      simp
    · have hk' : k < bs.length := by omega
      rw [h4 _ (by rw [apart_of_cfg hc, hsp]; exact hroom.2 _ _ (by omega) hn (by omega)), P.slot k hk']
      simp [List.getElem_append_left, hk']
  · intro c hcc
    rw [h4, P.other]
    · intro k hk
      exact hcc k (by simp; omega)
    · rw [apart_of_cfg hc, hsp]
      exact hcc _ (by simp)

/-- One more word. -/
theorem Pushed.word {s t : State} {bs : List Byte} (P : Pushed s bs t) (v : Word) (n : Nat) (hn : bs.length + 1 < n)
    (hroom : stackRoom s n) : ∃ u, push16 v t = .ok u ∧ Pushed s (bs ++ [highByte v, lowByte v]) u := by
  obtain ⟨u, h1, P1⟩ := P.snoc (highByte v) n (by omega) hroom
  obtain ⟨w, h2, P2⟩ := P1.snoc (lowByte v) n (by simp; omega) hroom
  exact ⟨w, by simp only [push16, h1, ok_bind, h2], by simpa using P2⟩

/-- A pull moves `S` back up one slot. -/
theorem pushSlot_up (s : State) (h : s.stackPageOk = true) (k : Nat) :
    (s.writeS (pushSlot s (k + 1) + 1)).sp = pushSlot s k := by
  have key : ∀ j, s.e = true → highByte (pushSlot s j) = 0x01 := by
    intro j he
    cases j with
    | zero => simpa [State.stackPageOk, he, pushSlot] using h
    | succ j => simp [pushSlot, State.writeS, he]
  simp only [pushSlot, State.writeS]
  cases he : s.e
  · simp
  · simp only [if_true]
    conv_rhs => rw [← mkWord_high_low (pushSlot s k), key k he]
    congr 1
    apply BitVec.eq_of_toNat_eq
    simp [toNat_lowByte, toNat_mkWord]
    have := (pushSlot s k).isLt
    omega

/-- Pulling a byte that was pushed. -/
theorem pull8_of_slot {s t : State} (hp : s.stackPageOk = true) (k : Nat) (b : Byte) (he : t.e = s.e)
    (hsp : t.sp = pushSlot s (k + 1)) (hb : peek t (bank0 (pushSlot s k)) = some b) :
    pull8 t = .ok (b, { t with sp := pushSlot s k }) := by
  have e : t.writeS (t.sp + 1) = { t with sp := pushSlot s k } := by
    have hu := pushSlot_up s hp k
    unfold State.writeS at *
    rw [he, hsp]
    simp only at hu
    rw [hu]
  unfold pull8
  simp only [e]
  exact readByte_of_peek hb

/-- Pulling the byte at a pull slot. -/
theorem pull8_of_pullSlot (s t : State) (k : Nat) (h : t = { s with sp := pullSlot s k }) (b : Byte)
    (hb : peek s (bank0 (pullSlot s (k + 1))) = some b) : pull8 t = .ok (b, { s with sp := pullSlot s (k + 1) }) := by
  subst h
  have e : ({ s with sp := pullSlot s k } : State).writeS (pullSlot s k + 1) =
      { s with sp := pullSlot s (k + 1) } := rfl
  unfold pull8
  simp only [e]
  exact readByte_of_peek hb

/-- The frame an interrupt entry pushes (`60_exceptions.md` R305), the first byte highest. -/
def entryFrame (kind : InterruptKind) (retpc : Word) (s : State) : List Byte :=
  (if s.e then [] else [s.pb]) ++ [highByte retpc, lowByte retpc, pushedStatus kind s.e s.p.toByte]

theorem entryFrame_length (kind : InterruptKind) (retpc : Word) (s : State) :
    (entryFrame kind retpc s).length = if s.e then 3 else 4 := by
  unfold entryFrame
  cases s.e <;> rfl

/-- The pushes of an entry, in RAM. -/
theorem entry_pushed (kind : InterruptKind) (retpc : Word) (s : State) (hw : s.bus.wf = true)
    (hr : stackRoom s (if s.e then 3 else 4)) :
    ∃ t1 t2 t3, pushBank s = .ok t1 ∧ push16 retpc t1 = .ok t2 ∧
      push8 (pushedStatus kind t2.e t2.p.toByte) t2 = .ok t3 ∧ Pushed s (entryFrame kind retpc s) t3 := by
  obtain ⟨t1, h1, P1⟩ : ∃ t, pushBank s = .ok t ∧ Pushed s (if s.e then [] else [s.pb]) t := by
    unfold pushBank
    cases he : s.e
    · simp only [Bool.false_eq_true, if_false]
      obtain ⟨t, h1, P⟩ := (Pushed.nil hw).snoc s.pb (if s.e then 3 else 4) (by simp [he]) hr
      exact ⟨t, h1, P⟩
    · exact ⟨s, rfl, Pushed.nil hw⟩
  obtain ⟨t2, h2, P2⟩ := P1.word retpc (if s.e then 3 else 4) (by cases s.e <;> simp) hr
  have e2 : t2.e = s.e := by rw [P2.frame]
  have e3 : t2.p = s.p := by rw [P2.frame]
  obtain ⟨t3, h3, P3⟩ := P2.snoc (pushedStatus kind s.e s.p.toByte) (if s.e then 3 else 4) (by cases s.e <;> simp) hr
  exact ⟨t1, t2, t3, h1, h2, by rw [e2, e3]; exact h3, by simpa [entryFrame] using P3⟩

end Sys2Proof.Machine
end

