-- ==== Sys2Proof/Laws/Ram.lean ====
section
/-! SUPPORT. Where every address names RAM, each operation answers, and every address still names RAM afterwards. -/

namespace Sys2Proof.Machine

open Sys2Proof

theorem AllRam.of_cfg {s t : State} (h : AllRam s) (hc : t.cfg = s.cfg) : AllRam t :=
  fun a => by rw [isRam_of_cfg hc]; exact h a

/-- The flat storage of `95_test_vectors.md` T0 makes every address RAM. -/
theorem allRam_flat {s : State} (h : s.cfg.regionMap = [Region.flat]) : AllRam s := by
  intro a
  have h1 : (bankOf a).toNat ≤ 0xFF := by have := (bankOf a).isLt; omega
  have h2 : (offsetOf a).toNat ≤ 0xFFFF := by have := (offsetOf a).isLt; omega
  have hc : regionCovers s.cfg.mapFamily Region.flat (bankOf a).toNat (offsetOf a).toNat = true := by
    simp only [regionCovers, Region.flat, Bool.and_eq_true, Bool.or_eq_true]
    exact ⟨⟨⟨⟨decide_eq_true (Nat.zero_le _), decide_eq_true h1⟩, decide_eq_true (Nat.zero_le _)⟩, decide_eq_true h2⟩,
      Or.inl (by decide)⟩
  unfold isRam locate
  simp only [h, List.find?_cons, hc]
  rfl

/-- In the flat storage two different addresses name different bytes. -/
theorem apart_flat {s : State} (h : s.cfg.regionMap = [Region.flat]) {a b : Addr} (hab : a ≠ b) :
    apart s a b = true := by
  have key : ∀ a : Addr, locate s.cfg a = .workRam ((bankOf a).toNat * 0x10000 + (offsetOf a).toNat) := by
    intro a
    have h1 : (bankOf a).toNat ≤ 0xFF := by have := (bankOf a).isLt; omega
    have h2 : (offsetOf a).toNat ≤ 0xFFFF := by have := (offsetOf a).isLt; omega
    have hc : regionCovers s.cfg.mapFamily Region.flat (bankOf a).toNat (offsetOf a).toNat = true := by
      simp only [regionCovers, Region.flat, Bool.and_eq_true, Bool.or_eq_true]
      exact ⟨⟨⟨⟨decide_eq_true (Nat.zero_le _), decide_eq_true h1⟩, decide_eq_true (Nat.zero_le _)⟩, decide_eq_true h2⟩,
      Or.inl (by decide)⟩
    unfold locate
    simp only [h, List.find?_cons, hc]
    simp only [regionPlace, Region.flat, regionLocation]
    congr 1
    omega
  unfold apart
  rw [key a, key b, bne_iff_ne]
  intro he
  apply hab
  injection he with he
  have e1 := toNat_mkAddr (bankOf a) (offsetOf a)
  have e2 := toNat_mkAddr (bankOf b) (offsetOf b)
  rw [mkAddr_bank_offset] at e1 e2
  apply BitVec.eq_of_toNat_eq
  omega

theorem AllRam.readByte {s : State} (h : AllRam s) (a : Addr) : ∃ b, readByte a s = .ok (b, s) := by
  obtain ⟨b, hb⟩ := peek_of_isRam (h a)
  exact ⟨b, readByte_of_peek hb⟩

theorem AllRam.readWord {s : State} (h : AllRam s) (a : Addr) : ∃ v, readWord a s = .ok (v, s) := by
  obtain ⟨lo, h1⟩ := h.readByte a
  obtain ⟨hi, h2⟩ := h.readByte (a + 1)
  exact ⟨mkWord hi lo, by simp only [Machine.readWord, h1, h2, ok_bind, pure_eq_ok]⟩

theorem AllRam.readLong {s : State} (h : AllRam s) (a : Addr) : ∃ v, readLong a s = .ok (v, s) := by
  obtain ⟨lo, h1⟩ := h.readByte a
  obtain ⟨hi, h2⟩ := h.readByte (a + 1)
  obtain ⟨bank, h3⟩ := h.readByte (a + 2)
  exact ⟨mkAddr bank (mkWord hi lo), by simp only [Machine.readLong, h1, h2, h3, ok_bind, pure_eq_ok]⟩

theorem AllRam.readW {s : State} (h : AllRam s) (a : Addr) (w : Width) : ∃ v, readW a w s = .ok (v, s) := by
  cases w with
  | w8 =>
    obtain ⟨b, h1⟩ := h.readByte a
    exact ⟨zextByte b, by simp only [Machine.readW, h1, ok_bind, pure_eq_ok]⟩
  | w16 => exact h.readWord a

theorem AllRam.writeByte {s : State} (h : AllRam s) (a : Addr) (v : Byte) :
    ∃ t, writeByte a v s = .ok t ∧ AllRam t :=
  ⟨_, writeByte_of_isRam v (h a), h.of_cfg rfl⟩

theorem AllRam.writeW {s : State} (h : AllRam s) (a : Addr) (w : Width) (v : Word) :
    ∃ t, writeW a w v s = .ok t ∧ AllRam t := by
  cases w with
  | w8 => exact h.writeByte a (lowByte v)
  | w16 =>
    obtain ⟨t, h1, ht⟩ := h.writeByte a (lowByte v)
    obtain ⟨u, h2, hu⟩ := ht.writeByte (a + 1) (highByte v)
    exact ⟨u, by simp only [Machine.writeW, h1, ok_bind, h2], hu⟩

theorem AllRam.effAddr {s : State} (h : AllRam s) (m : MemMode) : ∃ ea, effAddr m s = .ok (ea, s) := by
  cases m <;> simp only [Machine.effAddr]
  case dil d => exact h.readLong _
  case dly d =>
    obtain ⟨q, hq⟩ := h.readLong (dpAddr s d 0)
    exact ⟨_, by simp only [hq, ok_bind, pure_eq_ok]; rfl⟩
  case dpi d =>
    obtain ⟨q, hq⟩ := h.readWord (dpAddr s d 0)
    exact ⟨_, by simp only [hq, ok_bind, pure_eq_ok]; rfl⟩
  case dxi d =>
    obtain ⟨q, hq⟩ := h.readWord (dpAddr s d s.xV)
    exact ⟨_, by simp only [hq, ok_bind, pure_eq_ok]; rfl⟩
  case diy d =>
    obtain ⟨q, hq⟩ := h.readWord (dpAddr s d 0)
    exact ⟨_, by simp only [hq, ok_bind, pure_eq_ok]; rfl⟩
  case siy d =>
    obtain ⟨q, hq⟩ := h.readWord (srAddr s d)
    exact ⟨_, by simp only [hq, ok_bind, pure_eq_ok]; rfl⟩
  all_goals exact ⟨_, rfl⟩

theorem AllRam.load {s : State} (h : AllRam s) (o : DataOperand) (w : Width) : ∃ v, load o w s = .ok (v, s) := by
  cases o with
  | immM k => exact ⟨_, rfl⟩
  | immX k => exact ⟨_, rfl⟩
  | mem m =>
    obtain ⟨ea, h1⟩ := h.effAddr m
    obtain ⟨v, h2⟩ := h.readW ea w
    exact ⟨v, by simp only [Machine.load, h1, ok_bind, h2]⟩

theorem AllRam.store {s : State} (h : AllRam s) (m : MemMode) (w : Width) (v : Word) :
    ∃ t, store m w v s = .ok t := by
  obtain ⟨ea, h1⟩ := h.effAddr m
  obtain ⟨t, h2, -⟩ := h.writeW ea w v
  exact ⟨t, by simp only [Machine.store, h1, ok_bind, h2]⟩

theorem AllRam.jumpTarget {s : State} (h : AllRam s) (t : Target) : ∃ a, jumpTarget t s = .ok (a, s) := by
  cases t <;> simp only [Machine.jumpTarget]
  case abi a =>
    obtain ⟨q, hq⟩ := h.readWord (bank0 a)
    exact ⟨_, by simp only [hq, ok_bind, pure_eq_ok]; rfl⟩
  case axi a =>
    obtain ⟨q, hq⟩ := h.readWord (mkAddr s.pb (a + s.xV))
    exact ⟨_, by simp only [hq, ok_bind, pure_eq_ok]; rfl⟩
  case ail a => exact h.readLong _
  all_goals exact ⟨_, rfl⟩

theorem AllRam.push8 {s : State} (h : AllRam s) (v : Byte) : ∃ t, push8 v s = .ok t ∧ AllRam t := by
  obtain ⟨t, h1, ht⟩ := h.writeByte (bank0 s.sp) v
  exact ⟨t.writeS (t.sp - 1), by simp only [Machine.push8, h1, ok_bind, pure_eq_ok], ht.of_cfg rfl⟩

theorem AllRam.push16 {s : State} (h : AllRam s) (v : Word) : ∃ t, push16 v s = .ok t ∧ AllRam t := by
  obtain ⟨t, h1, ht⟩ := h.push8 (highByte v)
  obtain ⟨u, h2, hu⟩ := ht.push8 (lowByte v)
  exact ⟨u, by simp only [Machine.push16, h1, ok_bind, h2], hu⟩

theorem AllRam.pushW {s : State} (h : AllRam s) (w : Width) (v : Word) : ∃ t, pushW w v s = .ok t ∧ AllRam t := by
  cases w with
  | w8 => exact h.push8 (lowByte v)
  | w16 => exact h.push16 v

theorem AllRam.pull8 {s : State} (h : AllRam s) : ∃ b t, pull8 s = .ok (b, t) ∧ AllRam t := by
  have h' : AllRam (s.writeS (s.sp + 1)) := h.of_cfg rfl
  obtain ⟨b, h1⟩ := h'.readByte (bank0 (s.writeS (s.sp + 1)).sp)
  exact ⟨b, _, h1, h'⟩

theorem AllRam.pull16 {s : State} (h : AllRam s) : ∃ v t, pull16 s = .ok (v, t) ∧ AllRam t := by
  obtain ⟨lo, t, h1, ht⟩ := h.pull8
  obtain ⟨hi, u, h2, hu⟩ := ht.pull8
  exact ⟨mkWord hi lo, u, by simp only [Machine.pull16, h1, h2, ok_bind, pure_eq_ok], hu⟩

theorem AllRam.pullW {s : State} (h : AllRam s) (w : Width) : ∃ v t, pullW w s = .ok (v, t) ∧ AllRam t := by
  cases w with
  | w8 =>
    obtain ⟨b, t, h1, ht⟩ := h.pull8
    exact ⟨zextByte b, t, by simp only [Machine.pullW, h1, ok_bind, pure_eq_ok], ht⟩
  | w16 => exact h.pull16

theorem AllRam.pushBank {s : State} (h : AllRam s) : ∃ t, pushBank s = .ok t ∧ AllRam t := by
  unfold Machine.pushBank
  split
  · exact ⟨s, rfl, h⟩
  · exact h.push8 s.pb

theorem AllRam.interruptEntry {s : State} (h : AllRam s) (kind : InterruptKind) (retpc : Word) :
    ∃ t, interruptEntry kind retpc s = .ok t := by
  obtain ⟨t1, h1, r1⟩ := h.pushBank
  obtain ⟨t2, h2, r2⟩ := r1.push16 retpc
  obtain ⟨t3, h3, r3⟩ := r2.push8 (pushedStatus kind t2.e t2.p.toByte)
  have r4 : AllRam t3.enterHandler := r3.of_cfg rfl
  obtain ⟨v, h4⟩ := r4.readWord (vectorOf t3.cfg.vectors kind t3.e)
  exact ⟨_, by simp only [Machine.interruptEntry, h1, h2, h3, h4, ok_bind, pure_eq_ok]; rfl⟩

theorem AllRam.interruptReturn {s : State} (h : AllRam s) : ∃ t, interruptReturn s = .ok t := by
  obtain ⟨b, t1, h1, r1⟩ := h.pull8
  have r1' : AllRam (t1.setP b) := r1.of_cfg rfl
  obtain ⟨v, t2, h2, r2⟩ := r1'.pull16
  have r2' : AllRam { t2 with pc := v } := r2.of_cfg rfl
  obtain ⟨bank, t3, h3, -⟩ := r2'.pull8
  simp only [Machine.interruptReturn, h1, h2, ok_bind]
  split
  · exact ⟨_, rfl⟩
  · exact ⟨_, by simp only [h3, ok_bind, pure_eq_ok]; rfl⟩

theorem AllRam.fetchByte {s : State} (h : AllRam s) : ∃ b, fetchByte s = .ok (b, { s with pc := s.pc + 1 }) := by
  obtain ⟨b, h1⟩ := h.readByte (mkAddr s.pb s.pc)
  exact ⟨b, by simp only [Machine.fetchByte, h1, ok_bind, pure_eq_ok]⟩

theorem AllRam.fetchBytes {s : State} (h : AllRam s) (n : Nat) :
    ∃ bs t, fetchBytes n s = .ok (bs, t) ∧ bs.length = n ∧ AllRam t := by
  induction n generalizing s with
  | zero => exact ⟨[], s, rfl, rfl, h⟩
  | succ n ih =>
    obtain ⟨b, h1⟩ := h.fetchByte
    have h' : AllRam { s with pc := s.pc + 1 } := h.of_cfg rfl
    obtain ⟨bs, t, h2, h3, ht⟩ := ih h'
    exact ⟨b :: bs, t, by simp only [Machine.fetchBytes, h1, h2, ok_bind, pure_eq_ok], by simp [h3], ht⟩

end Sys2Proof.Machine
end

