-- ==== Sys2Proof/Laws/Stops.lean ====
section
/-! SUPPORT. Once for each operation: how it can stop. A stop of the Bus has its cause in the map of the address space or in
the device, and leaves the image and the canonical form of memory as they were. -/

namespace Sys2Proof.Machine

open Sys2Proof

/-- `t` has the parameters and the image of `s`, and canonical memory where `s` has. -/
structure SameMap (s t : State) : Prop where
  cfg : t.cfg = s.cfg
  rom : t.bus.rom = s.bus.rom
  wf : s.bus.wf = true → t.bus.wf = true

theorem SameMap.refl (s : State) : SameMap s s := ⟨rfl, rfl, id⟩

theorem SameMap.trans {s t u : State} (h : SameMap s t) (h' : SameMap t u) : SameMap s u :=
  ⟨h'.cfg.trans h.cfg, h'.rom.trans h.rom, h'.wf ∘ h.wf⟩

theorem SameMap.of_reads {s t : State}
    (h : t = { s with draws := t.draws, bus := { s.bus with device := t.bus.device } }) : SameMap s t := by
  rw [h]
  exact ⟨rfl, rfl, id⟩

theorem SameMap.of_ramOnly {s t : State} (h : RamOnly s t) : SameMap s t := ⟨by rw [h.frame], h.rom, h.wf⟩

theorem SameMap.of_stackOnly {s t : State} (h : StackOnly s t) : SameMap s t := ⟨by rw [h.frame], h.rom, h.wf⟩

theorem SameMap.of_pullOnly {s t : State} (h : PullOnly s t) : SameMap s t := by
  rw [h.frame]
  exact ⟨rfl, rfl, id⟩

/-- A stop the Bus raises in a state with the map of `s`: its cause, and what it leaves. -/
def BusStop (s : State) : Stop → Prop
  | .fault (.fatal reason bus) =>
    ((∃ addr, reason = .unmappedAddress addr ∧ raisesUnmapped s.cfg addr) ∨
      (∃ addr, reason = .writeToReadOnly addr ∧ raisesReadOnly s.cfg addr)) ∧
    bus.rom = s.bus.rom ∧ (s.bus.wf = true → bus.wf = true)
  | .refused r =>
    ∃ addr, r = .registerWindow addr ∧ locate s.cfg addr = .registerWindow ∧ s.cfg.regWindowPolicy = .refuse

theorem BusStop.of_sameMap {s t : State} {e : Stop} (h : BusStop t e) (m : SameMap s t) : BusStop s e := by
  cases e with
  | refused r =>
    simp only [BusStop, m.cfg] at h ⊢
    exact h
  | fault f =>
    cases f with
    | fatal reason bus =>
      simp only [BusStop, m.cfg] at h ⊢
      exact ⟨h.1, h.2.1.trans m.rom, h.2.2 ∘ m.wf⟩

/-- An operation on a state with the map of `s` stops only as the Bus does. -/
def BusStops {α : Type} (s : State) (m : Except Stop α) : Prop := ∀ e, m = .error e → BusStop s e

theorem BusStops.ok {α : Type} (s : State) (x : α) : BusStops s (Except.ok x) := fun _ h => nomatch h

theorem BusStops.bind {α β : Type} {s : State} {m : Except Stop α} {f : α → Except Stop β} (h : BusStops s m)
    (hf : ∀ x, m = .ok x → BusStops s (f x)) : BusStops s (m >>= f) := by
  cases m with
  | error e => exact fun e' h' => by cases h'; exact h e rfl
  | ok x => exact hf x rfl

theorem BusStops.of_sameMap {α : Type} {s t : State} {m : Except Stop α} (h : BusStops t m) (g : SameMap s t) :
    BusStops s m := fun e he => (h e he).of_sameMap g

/-- An operation on an operand, then one that always answers. -/
theorem BusStops.then_ok {α β : Type} {s : State} {m : Except Stop α} {f : α → β} (h : BusStops s m) :
    BusStops s (m >>= fun x => Except.ok (f x)) := h.bind fun _ _ => BusStops.ok s _

/-! ## The Bus -/

theorem readByte_stops (addr : Addr) (s : State) : BusStops s (readByte addr s) := by
  intro e h
  unfold readByte at h
  split at h
  · cases h
  · cases h
  · rename_i i hi
    split at h
    · cases h
    · rename_i hlt
      cases h
      exact ⟨Or.inl ⟨addr, rfl, Or.inr (Or.inl ⟨i, hi, by omega⟩)⟩, rfl, id⟩
  · rename_i hi
    split at h
    · rename_i hp
      cases h
      exact ⟨addr, rfl, hi, hp⟩
    · cases h
  · rename_i hi
    split at h
    · cases h
    · rename_i hd
      cases h
      exact ⟨Or.inl ⟨addr, rfl, Or.inr (Or.inr ⟨hi, Or.inl ⟨_, hd⟩⟩)⟩, rfl, id⟩
  · rename_i hi
    cases h
    exact ⟨Or.inl ⟨addr, rfl, Or.inl hi⟩, rfl, id⟩

theorem writeByte_stops (addr : Addr) (v : Byte) (s : State) : BusStops s (writeByte addr v s) := by
  intro e h
  unfold writeByte at h
  split at h
  · cases h
  · cases h
  · rename_i i hi
    cases h
    exact ⟨Or.inr ⟨addr, rfl, Or.inl ⟨i, hi⟩⟩, rfl, id⟩
  · rename_i hi
    split at h
    · rename_i hp
      cases h
      exact ⟨addr, rfl, hi, hp⟩
    · cases h
  · rename_i hi
    split at h
    · cases h
    · rename_i hd
      cases h
      exact ⟨Or.inl ⟨addr, rfl, Or.inr (Or.inr ⟨hi, Or.inr ⟨_, _, hd⟩⟩)⟩, rfl, id⟩
    · rename_i hd
      cases h
      exact ⟨Or.inr ⟨addr, rfl, Or.inr ⟨hi, _, _, hd⟩⟩, rfl, id⟩
  · rename_i hi
    cases h
    exact ⟨Or.inl ⟨addr, rfl, Or.inl hi⟩, rfl, id⟩

theorem readWord_stops (addr : Addr) (s : State) : BusStops s (readWord addr s) :=
  (readByte_stops addr s).bind fun _ h1 =>
    ((readByte_stops _ _).then_ok).of_sameMap (.of_reads (readByte_frame h1))

theorem readLong_stops (addr : Addr) (s : State) : BusStops s (readLong addr s) :=
  (readByte_stops addr s).bind fun _ h1 =>
    ((readByte_stops _ _).bind fun _ h2 =>
      ((readByte_stops _ _).then_ok).of_sameMap (.of_reads (readByte_frame h2))).of_sameMap
        (.of_reads (readByte_frame h1))

theorem readW_stops (addr : Addr) (w : Width) (s : State) : BusStops s (readW addr w s) := by
  cases w with
  | w8 => exact (readByte_stops addr s).then_ok
  | w16 => exact readWord_stops addr s

theorem writeW_stops (addr : Addr) (w : Width) (v : Word) (s : State) : BusStops s (writeW addr w v s) := by
  cases w with
  | w8 => exact writeByte_stops addr (lowByte v) s
  | w16 =>
    exact (writeByte_stops addr (lowByte v) s).bind fun _ h1 =>
      (writeByte_stops _ _ _).of_sameMap (.of_ramOnly (writeByte_ramOnly h1))

/-! ## Resolvers -/

theorem effAddr_stops (m : MemMode) (s : State) : BusStops s (effAddr m s) := by
  cases m <;> simp only [effAddr]
  case dil => exact readLong_stops _ _
  case dly => exact (readLong_stops _ _).then_ok
  case dpi | dxi | diy | siy => all_goals exact (readWord_stops _ _).then_ok
  all_goals exact BusStops.ok s _

theorem load_stops (o : DataOperand) (w : Width) (s : State) : BusStops s (load o w s) := by
  cases o with
  | immM k => exact BusStops.ok s _
  | immX k => exact BusStops.ok s _
  | mem m =>
    exact (effAddr_stops m s).bind fun _ h1 => (readW_stops _ _ _).of_sameMap (.of_reads (effAddr_frame h1))

theorem store_stops (m : MemMode) (w : Width) (v : Word) (s : State) : BusStops s (store m w v s) :=
  (effAddr_stops m s).bind fun _ h1 => (writeW_stops _ _ _ _).of_sameMap (.of_reads (effAddr_frame h1))

theorem jumpTarget_stops (t : Target) (s : State) : BusStops s (jumpTarget t s) := by
  cases t <;> simp only [jumpTarget]
  case ail => exact readLong_stops _ _
  case abi | axi => all_goals exact (readWord_stops _ _).then_ok
  all_goals exact BusStops.ok s _

/-! ## The stack -/

theorem push8_stops (v : Byte) (s : State) : BusStops s (push8 v s) := (writeByte_stops _ v s).then_ok

theorem push16_stops (v : Word) (s : State) : BusStops s (push16 v s) :=
  (push8_stops _ s).bind fun _ h1 => (push8_stops _ _).of_sameMap (.of_stackOnly (push8_stackOnly h1))

theorem pushW_stops (w : Width) (v : Word) (s : State) : BusStops s (pushW w v s) := by
  cases w with
  | w8 => exact push8_stops _ s
  | w16 => exact push16_stops v s

theorem pull8_stops (s : State) : BusStops s (pull8 s) :=
  (readByte_stops _ (s.writeS (s.sp + 1))).of_sameMap ⟨rfl, rfl, id⟩

theorem pull16_stops (s : State) : BusStops s (pull16 s) :=
  (pull8_stops s).bind fun _ h1 => ((pull8_stops _).then_ok).of_sameMap (.of_pullOnly (pull8_pullOnly h1))

theorem pullW_stops (w : Width) (s : State) : BusStops s (pullW w s) := by
  cases w with
  | w8 => exact (pull8_stops s).then_ok
  | w16 => exact pull16_stops s

/-! ## Entry and return -/

theorem pushBank_stops (s : State) : BusStops s (pushBank s) := by
  unfold pushBank
  split
  · exact BusStops.ok s _
  · exact push8_stops _ s

theorem pushBank_stackOnly {s t : State} (h : pushBank s = .ok t) : StackOnly s t := by
  unfold pushBank at h
  split at h
  · cases h; exact StackOnly.refl s
  · exact push8_stackOnly h

theorem interruptEntry_stops (kind : InterruptKind) (retpc : Word) (s : State) :
    BusStops s (interruptEntry kind retpc s) :=
  (pushBank_stops s).bind fun _ h1 => BusStops.of_sameMap
    ((push16_stops _ _).bind fun _ h2 => BusStops.of_sameMap
      ((push8_stops _ _).bind fun x h3 => BusStops.of_sameMap (t := x)
        (((readWord_stops _ x.enterHandler).then_ok).of_sameMap ⟨rfl, rfl, id⟩)
        (.of_stackOnly (push8_stackOnly h3)))
      (.of_stackOnly (push16_stackOnly h2)))
    (.of_stackOnly (pushBank_stackOnly h1))

theorem interruptReturn_stops (s : State) : BusStops s (interruptReturn s) :=
  (pull8_stops s).bind fun x h1 => BusStops.of_sameMap (t := x.2)
    (((pull16_stops (x.2.setP x.1)).bind fun y h2 => BusStops.of_sameMap (t := y.2) (by
        show BusStops y.2 (if y.2.e then _ else _)
        split
        · exact BusStops.ok _ _
        · exact ((pull8_stops { y.2 with pc := y.1 }).then_ok).of_sameMap ⟨rfl, rfl, id⟩)
      (.of_pullOnly (pull16_pullOnly h2))).of_sameMap ⟨rfl, rfl, id⟩)
    (.of_pullOnly (pull8_pullOnly h1))

/-! ## Fetch -/

/-- A read raises no fatal error but that of an unmapped address. -/
theorem readByte_fatal {addr : Addr} {s : State} {reason : FatalReason} {bus : Bus}
    (h : readByte addr s = .error (.fault (.fatal reason bus))) : reason = .unmappedAddress addr := by
  unfold readByte at h
  repeat' split at h
  all_goals cases h <;> rfl

/-- A fetch stops as a read does. -/
def FetchStops {α : Type} (s : State) (m : Except Stop α) : Prop :=
  BusStops s m ∧ ∀ reason bus, m = .error (.fault (.fatal reason bus)) → ∃ addr, reason = .unmappedAddress addr

theorem FetchStops.bind {α β : Type} {s : State} {m : Except Stop α} {f : α → Except Stop β} (h : FetchStops s m)
    (hf : ∀ x, m = .ok x → FetchStops s (f x)) : FetchStops s (m >>= f) := by
  cases m with
  | error e => exact ⟨h.1.bind (fun x hx => nomatch hx), fun r b h' => h.2 r b (by cases h'; rfl)⟩
  | ok x => exact hf x rfl

theorem FetchStops.ok {α : Type} (s : State) (x : α) : FetchStops s (Except.ok x) :=
  ⟨BusStops.ok s x, fun _ _ h => nomatch h⟩

theorem FetchStops.of_sameMap {α : Type} {s t : State} {m : Except Stop α} (h : FetchStops t m) (g : SameMap s t) :
    FetchStops s m := ⟨h.1.of_sameMap g, h.2⟩

theorem fetchByte_stops (s : State) : FetchStops s (fetchByte s) :=
  FetchStops.bind ⟨readByte_stops _ s, fun _ _ h => ⟨_, readByte_fatal h⟩⟩ fun _ _ => FetchStops.ok s _

theorem fetchByte_sameMap {s t : State} {b : Byte} (h : fetchByte s = .ok (b, t)) : SameMap s t := by
  rw [fetchByte_frame h]
  exact ⟨rfl, rfl, id⟩

theorem fetchBytes_stops (n : Nat) (s : State) : FetchStops s (fetchBytes n s) := by
  induction n generalizing s with
  | zero => exact FetchStops.ok s _
  | succ n ih =>
    exact (fetchByte_stops s).bind fun x h1 => FetchStops.of_sameMap ((ih x.2).bind fun _ _ => FetchStops.ok _ _)
      (fetchByte_sameMap (b := x.1) (t := x.2) h1)

/-- A fetch stops as a read does: the bytes it reads always decode. -/
theorem fetchInstr_stops (s : State) : FetchStops s (fetchInstr s) := by
  refine (fetchByte_stops s).bind fun x h1 => FetchStops.of_sameMap ?_ (fetchByte_sameMap (b := x.1) (t := x.2) h1)
  refine (fetchBytes_stops _ x.2).bind fun y h2 => ?_
  obtain ⟨i, rest, h⟩ := decode_of_length x.2.decodeContext x.1 y.1 (fetchBytes_length h2)
  simp only [h, pure_eq_ok]
  exact FetchStops.ok _ _

/-! ## Every instruction -/

/-- A meaning stops only as the Bus does. -/
def AnswerStops (s : State) (o : Answer) : Prop := ∀ e : Stop, o = e.answer → BusStop s e

theorem AnswerStops.next (s t : State) : AnswerStops s (.next t) := fun e h => by cases e <;> cases h

theorem AnswerStops.finish {s : State} {m : Except Stop State} (h : BusStops s m) : AnswerStops s (finish m) := by
  cases m with
  | ok t => exact AnswerStops.next s t
  | error e =>
    intro e' h'
    have : e = e' := by
      cases e <;> cases e' <;> simp only [Machine.finish, Stop.answer] at h' <;> cases h' <;> rfl
    exact this ▸ h e rfl

/-- The stops that are no access of the Bus: the decode error of `WDM`, and the refusal of decimal mode. -/
def OwnStop (mn : Mnemonic) (s : State) (e : Stop) : Prop :=
  (e = fatal (.decodeError 0x42) s ∧ mn = .wdm ∧ s.cfg.wdmBehaviour = .fatal) ∨
  (e = .refused .decimalMode ∧ mn ∈ [.adc, .sbc] ∧ s.cfg.decimalArith = .refuse ∧ s.p.d = true)

theorem checkDecimal_stops {s : State} {e : Stop} (h : checkDecimal s = .error e) :
    e = .refused .decimalMode ∧ s.cfg.decimalArith = .refuse ∧ s.p.d = true := by
  unfold checkDecimal at h
  split at h
  · rename_i hc
    cases h
    exact ⟨rfl, hc⟩
  · cases h

/-- `ADC` and `SBC`: the refusal of decimal mode, or what the rest does. -/
theorem answer_checkDecimal {s : State} {m : Except Stop State} (hm : BusStops s m) (e : Stop)
    (h : finish (checkDecimal s >>= fun _ => m) = e.answer) :
    BusStop s e ∨ e = .refused .decimalMode ∧ s.cfg.decimalArith = .refuse ∧ s.p.d = true := by
  cases hc : checkDecimal s with
  | ok x =>
    rw [hc, ok_bind] at h
    exact Or.inl (AnswerStops.finish hm e h)
  | error d =>
    rw [hc, error_bind] at h
    have : d = e := by
      cases d <;> cases e <;> simp only [Machine.finish, Stop.answer] at h <;> cases h <;> rfl
    exact Or.inr (this ▸ checkDecimal_stops hc)

/-- How every instruction stops: as the Bus does, or by a stop of its own. -/
theorem exec_stops (i : Instr) (s : State) (e : Stop) (h : exec i s = e.answer) :
    BusStop s e ∨ OwnStop i.mnemonic s e := by
  have ho := operand_of_mnemonic i
  rw [exec_eq_form] at h
  generalize i.operand = o at *
  generalize i.mnemonic = mn at *
  cases mn <;> simp only [execForm] at h <;> simp only at ho
  case wdm =>
    obtain ⟨d, rfl⟩ := ho
    simp only [onWdm, execWdm] at h
    cases hc : s.cfg.wdmBehaviour with
    | fatal =>
      rw [hc] at h
      cases e <;> cases h
      exact Or.inr (Or.inl ⟨rfl, rfl, hc⟩)
    | nop2 =>
      rw [hc] at h
      cases e <;> cases h
  case adc | sbc =>
    all_goals
      obtain ⟨d, rfl⟩ := ho
      rcases answer_checkDecimal ((load_stops d s.wA s).then_ok) e h with hb | hd
      · exact Or.inl hb
      · exact Or.inr (Or.inr ⟨hd.1, by simp, hd.2⟩)
  all_goals refine Or.inl ((?_ : AnswerStops s _) e h)
  case lda | and | ora | eor | cmp =>
    all_goals
      obtain ⟨d, rfl⟩ := ho
      exact .finish (load_stops d s.wA s).then_ok
  case ldx | ldy | cpx | cpy =>
    all_goals
      obtain ⟨d, rfl⟩ := ho
      exact .finish (load_stops d s.wX s).then_ok
  case bit =>
    obtain ⟨d, rfl⟩ := ho
    refine .finish ((load_stops d s.wA s).bind fun x _ => ?_)
    cases d <;> exact BusStops.ok s _
  case sta | stx | sty | stz =>
    all_goals
      obtain ⟨m, rfl⟩ := ho
      exact .finish (store_stops m _ _ s)
  case tsb | trb =>
    all_goals
      obtain ⟨m, rfl⟩ := ho
      exact .finish ((effAddr_stops m s).bind fun _ h1 => BusStops.of_sameMap
        ((readW_stops _ _ _).bind fun _ h2 => ((writeW_stops _ _ _ _).then_ok).of_sameMap (.of_reads (readW_frame h2)))
        (.of_reads (effAddr_frame h1)))
  case inc | dec | asl | lsr | rol | ror =>
    all_goals
      rcases ho with rfl | ⟨m, rfl⟩
      · exact AnswerStops.next s _
      · exact .finish ((effAddr_stops m s).bind fun _ h1 => BusStops.of_sameMap
          ((readW_stops _ _ _).bind fun _ h2 =>
            ((writeW_stops _ _ _ _).then_ok).of_sameMap (.of_reads (readW_frame h2)))
          (.of_reads (effAddr_frame h1)))
  case bpl | bmi | bvc | bvs | bcc | bcs | bne | beq | bra | brl | rep | sep =>
    all_goals
      obtain ⟨d, rfl⟩ := ho
      exact AnswerStops.next s _
  case jmp | jml =>
    all_goals
      obtain ⟨d, rfl⟩ := ho
      exact .finish (jumpTarget_stops d s).then_ok
  case jsr =>
    obtain ⟨d, rfl⟩ := ho
    exact .finish ((push16_stops _ s).bind fun _ h1 =>
      ((jumpTarget_stops d _).then_ok).of_sameMap (.of_stackOnly (push16_stackOnly h1)))
  case jsl =>
    obtain ⟨d, rfl⟩ := ho
    exact .finish ((push8_stops _ s).bind fun _ h1 => BusStops.of_sameMap
      ((push16_stops _ _).bind fun _ h2 =>
        ((jumpTarget_stops d _).then_ok).of_sameMap (.of_stackOnly (push16_stackOnly h2)))
      (.of_stackOnly (push8_stackOnly h1)))
  case rts => exact .finish (pull16_stops s).then_ok
  case rtl =>
    exact .finish ((pull16_stops s).bind fun x h1 => BusStops.of_sameMap (t := x.2)
      (((pull8_stops { x.2 with pc := x.1 + 1 }).then_ok).of_sameMap ⟨rfl, rfl, id⟩) (.of_pullOnly (pull16_pullOnly h1)))
  case pha | phx | phy => all_goals exact .finish (pushW_stops _ _ s)
  case php | phb | phk => all_goals exact .finish (push8_stops _ s)
  case phd => exact .finish (push16_stops _ s)
  case pla | plx | ply => all_goals exact .finish (pullW_stops _ s).then_ok
  case plp | plb => all_goals exact .finish (pull8_stops s).then_ok
  case pld => exact .finish (pull16_stops s).then_ok
  case pea | per =>
    all_goals
      obtain ⟨d, rfl⟩ := ho
      exact .finish (push16_stops _ s)
  case pei =>
    obtain ⟨d, rfl⟩ := ho
    exact .finish ((readWord_stops _ s).bind fun _ h1 => (push16_stops _ _).of_sameMap (.of_reads (readWord_frame h1)))
  case mvn | mvp =>
    all_goals
      obtain ⟨d, b, rfl⟩ := ho
      exact .finish ((readByte_stops _ s).bind fun _ h1 =>
        ((writeByte_stops _ _ _).then_ok).of_sameMap (.of_reads (readByte_frame h1)))
  case brk | cop =>
    all_goals
      obtain ⟨d, rfl⟩ := ho
      exact .finish (interruptEntry_stops _ _ s)
  case rti => exact .finish (interruptReturn_stops s)
  all_goals exact AnswerStops.next s _

end Sys2Proof.Machine
end

