-- ==== Sys2Proof/Tests/Slice0.lean ====
section
/-! SUPPORT. Tests: the ill-formed terms `WellFormed` refuses, the decoding of every opcode from a word written out from
`30_encoding.md` R77, one step per vector of `95_test_vectors.md`, and a witness for the hypotheses of every statement. -/

namespace Sys2Proof.Machine

/-- Bytes changed in a state's storage. -/
def State.holding (s : State) (cells : List (Addr × Byte)) : State := cells.foldl (fun s c => poke s c.1 c.2) s

/-- A state with instruction bytes at `PB:PC`. -/
def State.running (s : State) (bytes : List Byte) : State := placeBytes s s.pb s.pc bytes

end Sys2Proof.Machine

namespace Sys2Proof.Tests

open Sys2Proof Sys2Proof.Machine

/-- The default start state of `95_test_vectors.md`, section 0. -/
def T0 : State := { State.reset with e := false, p := Flags.ofByte 0x00, sp := 0x01FF, pc := 0x8000 }

/-- An answer is this next state. -/
def nextIs (o : Answer) (t : State) : Bool :=
  match o with
  | .next u => decide (u = t)
  | .fault _ => false
  | .refused _ => false

/-- One step from a state gives the change `f` of it. -/
def becomes (s : State) (f : State → State) : Bool := nextIs (step s) (f s)

/-- An answer is a fatal error of this reason, over a Bus that reads as `bus` says. -/
def stopsWith (o : Answer) (reason : FatalReason) (bus : Bus → Bool) : Bool :=
  match o with
  | .fault (.fatal r b) => decide (r = reason) && bus b
  | .next _ => false
  | .refused _ => false

/-- An answer is a next state halted for this reason. -/
def haltedWith (o : Answer) (reason : FatalReason) : Bool :=
  match o with
  | .next t => decide (t.run = .halted reason)
  | .fault _ => false
  | .refused _ => false

/-- An answer is this refusal. -/
def refusedWith (o : Answer) (r : Refusal) : Bool :=
  match o with
  | .refused q => decide (q = r)
  | .next _ => false
  | .fault _ => false

/-- Every word decodes to the instruction beside it, 16-bit widths, `WDM` without a signature. -/
def decodesAll : List (List Byte × Instr) → Bool
  | [] => true
  | (bytes, i) :: rest =>
    (match decode { m8 := false, x8 := false, wdmSignature := false } bytes with
      | .ok (j, left) => decide (j = i) && left.isEmpty
      | .error _ => false) && decodesAll rest

/-! ## `WellFormed` refuses -/

/-- `30_encoding.md` R75: a word constant while the accumulator is 8 bits wide. -/
theorem test_wf_word_at_m8 :
    WellFormed { m8 := true, x8 := false, wdmSignature := false } (.ldaImmM (.word 0x1234)) = false := by decide

/-- R75: a byte constant while the accumulator is 16 bits wide. -/
theorem test_wf_byte_at_m16 :
    WellFormed { m8 := false, x8 := true, wdmSignature := false } (.adcImmM (.byte 0x12)) = false := by decide

/-- R75: a word constant while the index registers are 8 bits wide. -/
theorem test_wf_word_at_x8 :
    WellFormed { m8 := false, x8 := true, wdmSignature := false } (.ldxImmX (.word 0x1234)) = false := by decide

/-- R75: a byte constant while the index registers are 16 bits wide. -/
theorem test_wf_byte_at_x16 :
    WellFormed { m8 := true, x8 := false, wdmSignature := false } (.cpyImmX (.byte 0x12)) = false := by decide

/-- R79: `WDM` with a signature byte where its behaviour fetches none. -/
theorem test_wf_wdm_signature_when_fatal :
    WellFormed { m8 := true, x8 := true, wdmSignature := false } (.wdm (some 0x00)) = false := by decide

/-- R79: `WDM` without a signature byte where its behaviour fetches one. -/
theorem test_wf_wdm_no_signature_when_nop :
    WellFormed { m8 := true, x8 := true, wdmSignature := true } (.wdm none) = false := by decide

/-! ## Decoding: the sixteen rows of the table of `30_encoding.md` R77, each word written out from its encoding -/

theorem test_decode_row0 :
    decodesAll
      [([0x00, 0x12], .brk 0x12), ([0x01, 0x12], .oraDxi 0x12), ([0x02, 0x12], .cop 0x12),
       ([0x03, 0x12], .oraSr 0x12), ([0x04, 0x12], .tsbDp 0x12), ([0x05, 0x12], .oraDp 0x12),
       ([0x06, 0x12], .aslDp 0x12), ([0x07, 0x12], .oraDil 0x12), ([0x08], .php),
       ([0x09, 0x34, 0x12], .oraImmM (.word 0x1234)), ([0x0A], .aslAcc), ([0x0B], .phd),
       ([0x0C, 0x34, 0x12], .tsbAbs 0x1234), ([0x0D, 0x34, 0x12], .oraAbs 0x1234),
       ([0x0E, 0x34, 0x12], .aslAbs 0x1234), ([0x0F, 0x56, 0x34, 0x12], .oraAbl 0x123456)] = true := by decide

theorem test_decode_row1 :
    decodesAll
      [([0x10, 0x12], .bpl 0x12), ([0x11, 0x12], .oraDiy 0x12), ([0x12, 0x12], .oraDpi 0x12),
       ([0x13, 0x12], .oraSiy 0x12), ([0x14, 0x12], .trbDp 0x12), ([0x15, 0x12], .oraDpx 0x12),
       ([0x16, 0x12], .aslDpx 0x12), ([0x17, 0x12], .oraDly 0x12), ([0x18], .clc),
       ([0x19, 0x34, 0x12], .oraAby 0x1234), ([0x1A], .incAcc), ([0x1B], .tcs),
       ([0x1C, 0x34, 0x12], .trbAbs 0x1234), ([0x1D, 0x34, 0x12], .oraAbx 0x1234),
       ([0x1E, 0x34, 0x12], .aslAbx 0x1234), ([0x1F, 0x56, 0x34, 0x12], .oraAlx 0x123456)] = true := by decide

theorem test_decode_row2 :
    decodesAll
      [([0x20, 0x34, 0x12], .jsrAbsPb 0x1234), ([0x21, 0x12], .andDxi 0x12),
       ([0x22, 0x56, 0x34, 0x12], .jsl 0x123456), ([0x23, 0x12], .andSr 0x12), ([0x24, 0x12], .bitDp 0x12),
       ([0x25, 0x12], .andDp 0x12), ([0x26, 0x12], .rolDp 0x12), ([0x27, 0x12], .andDil 0x12), ([0x28], .plp),
       ([0x29, 0x34, 0x12], .andImmM (.word 0x1234)), ([0x2A], .rolAcc), ([0x2B], .pld),
       ([0x2C, 0x34, 0x12], .bitAbs 0x1234), ([0x2D, 0x34, 0x12], .andAbs 0x1234),
       ([0x2E, 0x34, 0x12], .rolAbs 0x1234), ([0x2F, 0x56, 0x34, 0x12], .andAbl 0x123456)] = true := by decide

theorem test_decode_row3 :
    decodesAll
      [([0x30, 0x12], .bmi 0x12), ([0x31, 0x12], .andDiy 0x12), ([0x32, 0x12], .andDpi 0x12),
       ([0x33, 0x12], .andSiy 0x12), ([0x34, 0x12], .bitDpx 0x12), ([0x35, 0x12], .andDpx 0x12),
       ([0x36, 0x12], .rolDpx 0x12), ([0x37, 0x12], .andDly 0x12), ([0x38], .sec),
       ([0x39, 0x34, 0x12], .andAby 0x1234), ([0x3A], .decAcc), ([0x3B], .tsc),
       ([0x3C, 0x34, 0x12], .bitAbx 0x1234), ([0x3D, 0x34, 0x12], .andAbx 0x1234),
       ([0x3E, 0x34, 0x12], .rolAbx 0x1234), ([0x3F, 0x56, 0x34, 0x12], .andAlx 0x123456)] = true := by decide

theorem test_decode_row4 :
    decodesAll
      [([0x40], .rti), ([0x41, 0x12], .eorDxi 0x12), ([0x42], .wdm none), ([0x43, 0x12], .eorSr 0x12),
       ([0x44, 0x7F, 0x7E], .mvp 0x7F 0x7E), ([0x45, 0x12], .eorDp 0x12), ([0x46, 0x12], .lsrDp 0x12),
       ([0x47, 0x12], .eorDil 0x12), ([0x48], .pha), ([0x49, 0x34, 0x12], .eorImmM (.word 0x1234)),
       ([0x4A], .lsrAcc), ([0x4B], .phk), ([0x4C, 0x34, 0x12], .jmpAbsPb 0x1234),
       ([0x4D, 0x34, 0x12], .eorAbs 0x1234), ([0x4E, 0x34, 0x12], .lsrAbs 0x1234),
       ([0x4F, 0x56, 0x34, 0x12], .eorAbl 0x123456)] = true := by decide

theorem test_decode_row5 :
    decodesAll
      [([0x50, 0x12], .bvc 0x12), ([0x51, 0x12], .eorDiy 0x12), ([0x52, 0x12], .eorDpi 0x12),
       ([0x53, 0x12], .eorSiy 0x12), ([0x54, 0x7F, 0x7E], .mvn 0x7F 0x7E), ([0x55, 0x12], .eorDpx 0x12),
       ([0x56, 0x12], .lsrDpx 0x12), ([0x57, 0x12], .eorDly 0x12), ([0x58], .cli),
       ([0x59, 0x34, 0x12], .eorAby 0x1234), ([0x5A], .phy), ([0x5B], .tcd),
       ([0x5C, 0x56, 0x34, 0x12], .jmlAblPc 0x123456), ([0x5D, 0x34, 0x12], .eorAbx 0x1234),
       ([0x5E, 0x34, 0x12], .lsrAbx 0x1234), ([0x5F, 0x56, 0x34, 0x12], .eorAlx 0x123456)] = true := by decide

theorem test_decode_row6 :
    decodesAll
      [([0x60], .rts), ([0x61, 0x12], .adcDxi 0x12), ([0x62, 0x34, 0x12], .per 0x1234),
       ([0x63, 0x12], .adcSr 0x12), ([0x64, 0x12], .stzDp 0x12), ([0x65, 0x12], .adcDp 0x12),
       ([0x66, 0x12], .rorDp 0x12), ([0x67, 0x12], .adcDil 0x12), ([0x68], .pla),
       ([0x69, 0x34, 0x12], .adcImmM (.word 0x1234)), ([0x6A], .rorAcc), ([0x6B], .rtl),
       ([0x6C, 0x34, 0x12], .jmpAbi 0x1234), ([0x6D, 0x34, 0x12], .adcAbs 0x1234),
       ([0x6E, 0x34, 0x12], .rorAbs 0x1234), ([0x6F, 0x56, 0x34, 0x12], .adcAbl 0x123456)] = true := by decide

theorem test_decode_row7 :
    decodesAll
      [([0x70, 0x12], .bvs 0x12), ([0x71, 0x12], .adcDiy 0x12), ([0x72, 0x12], .adcDpi 0x12),
       ([0x73, 0x12], .adcSiy 0x12), ([0x74, 0x12], .stzDpx 0x12), ([0x75, 0x12], .adcDpx 0x12),
       ([0x76, 0x12], .rorDpx 0x12), ([0x77, 0x12], .adcDly 0x12), ([0x78], .sei),
       ([0x79, 0x34, 0x12], .adcAby 0x1234), ([0x7A], .ply), ([0x7B], .tdc), ([0x7C, 0x34, 0x12], .jmpAxi 0x1234),
       ([0x7D, 0x34, 0x12], .adcAbx 0x1234), ([0x7E, 0x34, 0x12], .rorAbx 0x1234),
       ([0x7F, 0x56, 0x34, 0x12], .adcAlx 0x123456)] = true := by decide

theorem test_decode_row8 :
    decodesAll
      [([0x80, 0x12], .bra 0x12), ([0x81, 0x12], .staDxi 0x12), ([0x82, 0x34, 0x12], .brl 0x1234),
       ([0x83, 0x12], .staSr 0x12), ([0x84, 0x12], .styDp 0x12), ([0x85, 0x12], .staDp 0x12),
       ([0x86, 0x12], .stxDp 0x12), ([0x87, 0x12], .staDil 0x12), ([0x88], .dey),
       ([0x89, 0x34, 0x12], .bitImmM (.word 0x1234)), ([0x8A], .txa), ([0x8B], .phb),
       ([0x8C, 0x34, 0x12], .styAbs 0x1234), ([0x8D, 0x34, 0x12], .staAbs 0x1234),
       ([0x8E, 0x34, 0x12], .stxAbs 0x1234), ([0x8F, 0x56, 0x34, 0x12], .staAbl 0x123456)] = true := by decide

theorem test_decode_row9 :
    decodesAll
      [([0x90, 0x12], .bcc 0x12), ([0x91, 0x12], .staDiy 0x12), ([0x92, 0x12], .staDpi 0x12),
       ([0x93, 0x12], .staSiy 0x12), ([0x94, 0x12], .styDpx 0x12), ([0x95, 0x12], .staDpx 0x12),
       ([0x96, 0x12], .stxDpy 0x12), ([0x97, 0x12], .staDly 0x12), ([0x98], .tya),
       ([0x99, 0x34, 0x12], .staAby 0x1234), ([0x9A], .txs), ([0x9B], .txy), ([0x9C, 0x34, 0x12], .stzAbs 0x1234),
       ([0x9D, 0x34, 0x12], .staAbx 0x1234), ([0x9E, 0x34, 0x12], .stzAbx 0x1234),
       ([0x9F, 0x56, 0x34, 0x12], .staAlx 0x123456)] = true := by decide

theorem test_decode_rowA :
    decodesAll
      [([0xA0, 0x34, 0x12], .ldyImmX (.word 0x1234)), ([0xA1, 0x12], .ldaDxi 0x12),
       ([0xA2, 0x34, 0x12], .ldxImmX (.word 0x1234)), ([0xA3, 0x12], .ldaSr 0x12), ([0xA4, 0x12], .ldyDp 0x12),
       ([0xA5, 0x12], .ldaDp 0x12), ([0xA6, 0x12], .ldxDp 0x12), ([0xA7, 0x12], .ldaDil 0x12), ([0xA8], .tay),
       ([0xA9, 0x34, 0x12], .ldaImmM (.word 0x1234)), ([0xAA], .tax), ([0xAB], .plb),
       ([0xAC, 0x34, 0x12], .ldyAbs 0x1234), ([0xAD, 0x34, 0x12], .ldaAbs 0x1234),
       ([0xAE, 0x34, 0x12], .ldxAbs 0x1234), ([0xAF, 0x56, 0x34, 0x12], .ldaAbl 0x123456)] = true := by decide

theorem test_decode_rowB :
    decodesAll
      [([0xB0, 0x12], .bcs 0x12), ([0xB1, 0x12], .ldaDiy 0x12), ([0xB2, 0x12], .ldaDpi 0x12),
       ([0xB3, 0x12], .ldaSiy 0x12), ([0xB4, 0x12], .ldyDpx 0x12), ([0xB5, 0x12], .ldaDpx 0x12),
       ([0xB6, 0x12], .ldxDpy 0x12), ([0xB7, 0x12], .ldaDly 0x12), ([0xB8], .clv),
       ([0xB9, 0x34, 0x12], .ldaAby 0x1234), ([0xBA], .tsx), ([0xBB], .tyx), ([0xBC, 0x34, 0x12], .ldyAbx 0x1234),
       ([0xBD, 0x34, 0x12], .ldaAbx 0x1234), ([0xBE, 0x34, 0x12], .ldxAby 0x1234),
       ([0xBF, 0x56, 0x34, 0x12], .ldaAlx 0x123456)] = true := by decide

theorem test_decode_rowC :
    decodesAll
      [([0xC0, 0x34, 0x12], .cpyImmX (.word 0x1234)), ([0xC1, 0x12], .cmpDxi 0x12), ([0xC2, 0x12], .rep 0x12),
       ([0xC3, 0x12], .cmpSr 0x12), ([0xC4, 0x12], .cpyDp 0x12), ([0xC5, 0x12], .cmpDp 0x12),
       ([0xC6, 0x12], .decDp 0x12), ([0xC7, 0x12], .cmpDil 0x12), ([0xC8], .iny),
       ([0xC9, 0x34, 0x12], .cmpImmM (.word 0x1234)), ([0xCA], .dex), ([0xCB], .wai),
       ([0xCC, 0x34, 0x12], .cpyAbs 0x1234), ([0xCD, 0x34, 0x12], .cmpAbs 0x1234),
       ([0xCE, 0x34, 0x12], .decAbs 0x1234), ([0xCF, 0x56, 0x34, 0x12], .cmpAbl 0x123456)] = true := by decide

theorem test_decode_rowD :
    decodesAll
      [([0xD0, 0x12], .bne 0x12), ([0xD1, 0x12], .cmpDiy 0x12), ([0xD2, 0x12], .cmpDpi 0x12),
       ([0xD3, 0x12], .cmpSiy 0x12), ([0xD4, 0x12], .pei 0x12), ([0xD5, 0x12], .cmpDpx 0x12),
       ([0xD6, 0x12], .decDpx 0x12), ([0xD7, 0x12], .cmpDly 0x12), ([0xD8], .cld),
       ([0xD9, 0x34, 0x12], .cmpAby 0x1234), ([0xDA], .phx), ([0xDB], .stp), ([0xDC, 0x34, 0x12], .jmlAil 0x1234),
       ([0xDD, 0x34, 0x12], .cmpAbx 0x1234), ([0xDE, 0x34, 0x12], .decAbx 0x1234),
       ([0xDF, 0x56, 0x34, 0x12], .cmpAlx 0x123456)] = true := by decide

theorem test_decode_rowE :
    decodesAll
      [([0xE0, 0x34, 0x12], .cpxImmX (.word 0x1234)), ([0xE1, 0x12], .sbcDxi 0x12), ([0xE2, 0x12], .sep 0x12),
       ([0xE3, 0x12], .sbcSr 0x12), ([0xE4, 0x12], .cpxDp 0x12), ([0xE5, 0x12], .sbcDp 0x12),
       ([0xE6, 0x12], .incDp 0x12), ([0xE7, 0x12], .sbcDil 0x12), ([0xE8], .inx),
       ([0xE9, 0x34, 0x12], .sbcImmM (.word 0x1234)), ([0xEA], .nop), ([0xEB], .xba),
       ([0xEC, 0x34, 0x12], .cpxAbs 0x1234), ([0xED, 0x34, 0x12], .sbcAbs 0x1234),
       ([0xEE, 0x34, 0x12], .incAbs 0x1234), ([0xEF, 0x56, 0x34, 0x12], .sbcAbl 0x123456)] = true := by decide

theorem test_decode_rowF :
    decodesAll
      [([0xF0, 0x12], .beq 0x12), ([0xF1, 0x12], .sbcDiy 0x12), ([0xF2, 0x12], .sbcDpi 0x12),
       ([0xF3, 0x12], .sbcSiy 0x12), ([0xF4, 0x34, 0x12], .pea 0x1234), ([0xF5, 0x12], .sbcDpx 0x12),
       ([0xF6, 0x12], .incDpx 0x12), ([0xF7, 0x12], .sbcDly 0x12), ([0xF8], .sed),
       ([0xF9, 0x34, 0x12], .sbcAby 0x1234), ([0xFA], .plx), ([0xFB], .xce), ([0xFC, 0x34, 0x12], .jsrAxi 0x1234),
       ([0xFD, 0x34, 0x12], .sbcAbx 0x1234), ([0xFE, 0x34, 0x12], .incAbx 0x1234),
       ([0xFF, 0x56, 0x34, 0x12], .sbcAlx 0x123456)] = true := by decide

/-! ## Widths at decoding, and refusal of a short word -/

/-- R75: the constant is one byte while the accumulator is 8 bits wide; the next byte is left. -/
theorem test_decode_narrow_constant :
    decode { m8 := true, x8 := true, wdmSignature := false } [0xA9, 0x34, 0x12] = .ok (.ldaImmM (.byte 0x34), [0x12]) := rfl

/-- R79, R273: the reserved opcode takes a signature byte where its behaviour fetches one. -/
theorem test_decode_wdm_signature :
    decode { m8 := true, x8 := true, wdmSignature := true } [0x42, 0x99] = .ok (.wdm (some 0x99), []) := rfl

/-- R70: an operand byte is missing. -/
theorem test_decode_short :
    (match decode { m8 := true, x8 := true, wdmSignature := false } [0xAD, 0x00] with
      | .ok _ => false
      | .error _ => true) = true := by decide

/-! ## One step, from the vectors of `95_test_vectors.md` -/

/-- `95_test_vectors.md` A3: LDA. -/
theorem test_A3_ldaAbs :
    becomes (({ T0 with db := 0x7E }.holding [(0x7E2000, 0xCD), (0x7E2001, 0xAB)]).running [0xAD, 0x00, 0x20])
      (fun s => { s with a := 0xABCD, pc := 0x8003, p := Flags.ofByte 0x80 }) = true := by decide

/-- `95_test_vectors.md` A4: LDA. -/
theorem test_A4_ldaAbx :
    becomes (({ T0 with db := 0x7E, x := 0x0010 }.holding [(0x7F0008, 0x11), (0x7F0009, 0x22)])
        |>.running [0xBD, 0xF8, 0xFF])
      (fun s => { s with a := 0x2211, pc := 0x8003 }) = true := by decide

/-- `95_test_vectors.md` A5: LDA. -/
theorem test_A5_ldaAby :
    becomes (({ T0 with db := 0x7E, y := 0x0001 }.holding [(0x7F0000, 0x33), (0x7F0001, 0x44)])
        |>.running [0xB9, 0xFF, 0xFF])
      (fun s => { s with a := 0x4433, pc := 0x8003 }) = true := by decide

/-- `95_test_vectors.md` A6: LDA. -/
theorem test_A6_ldaAbx :
    becomes (({ T0 with db := 0x7E, x := 0xFF10, p := Flags.ofByte 0x10 }
        |>.holding [(0x7E2010, 0x55), (0x7E2011, 0x66)])
        |>.running [0xBD, 0x00, 0x20])
      (fun s => { s with a := 0x6655, pc := 0x8003 }) = true := by decide

/-- `95_test_vectors.md` A7: LDA. -/
theorem test_A7_ldaAbl :
    becomes ((T0.holding [(0x123456, 0x78), (0x123457, 0x9A)]).running [0xAF, 0x56, 0x34, 0x12])
      (fun s => { s with a := 0x9A78, pc := 0x8004, p := Flags.ofByte 0x80 }) = true := by decide

/-- `95_test_vectors.md` A8: LDA. -/
theorem test_A8_ldaAlx :
    becomes (({ T0 with x := 0x0002 }.holding [(0x7F0001, 0xBC), (0x7F0002, 0xDE)]).running [0xBF, 0xFF, 0xFF, 0x7E])
      (fun s => { s with a := 0xDEBC, pc := 0x8004, p := Flags.ofByte 0x80 }) = true := by decide

/-- `95_test_vectors.md` A9: LDA. -/
theorem test_A9_ldaDp :
    becomes (({ T0 with d := 0x2100, db := 0x7E }.holding [(0x002110, 0x01), (0x002111, 0x02)]).running [0xA5, 0x10])
      (fun s => { s with a := 0x0201, pc := 0x8002 }) = true := by decide

/-- `95_test_vectors.md` A10: LDA. -/
theorem test_A10_ldaDp :
    becomes (({ T0 with d := 0xFFF0 }.holding [(0x000010, 0x03), (0x000011, 0x04)]).running [0xA5, 0x20])
      (fun s => { s with a := 0x0403, pc := 0x8002 }) = true := by decide

/-- `95_test_vectors.md` A13: LDA. -/
theorem test_A13_ldaDpx :
    becomes (({ T0 with e := true, d := 0x0034, x := 0x0005 }.holding [(0x000103, 0x09)]).running [0xB5, 0xFE])
      (fun s => { s with a := 0x0009, pc := 0x8002 }) = true := by decide

/-- `95_test_vectors.md` A14: LDA. -/
theorem test_A14_ldaDpx :
    becomes (({ T0 with e := true, d := 0x0034, x := 0x0005, cfg := { Config.default with emuDpPageWrap := true } }
        |>.holding [(0x000003, 0x0A)])
        |>.running [0xB5, 0xFE])
      (fun s => { s with a := 0x000A, pc := 0x8002 }) = true := by decide

/-- `95_test_vectors.md` A15: LDA. -/
theorem test_A15_ldaDpi :
    becomes (({ T0 with d := 0x0010, db := 0x7E }
        |>.holding [(0x000030, 0x00), (0x000031, 0x30), (0x7E3000, 0x0B), (0x7E3001, 0x0C)])
        |>.running [0xB2, 0x20])
      (fun s => { s with a := 0x0C0B, pc := 0x8002 }) = true := by decide

/-- `95_test_vectors.md` A16: LDA. -/
theorem test_A16_ldaDxi :
    becomes (({ T0 with d := 0x0010, db := 0x7E, x := 0x0004 }
        |>.holding [(0x000034, 0x00), (0x000035, 0x40), (0x7E4000, 0x0D), (0x7E4001, 0x0E)])
        |>.running [0xA1, 0x20])
      (fun s => { s with a := 0x0E0D, pc := 0x8002 }) = true := by decide

/-- `95_test_vectors.md` A17: LDA. -/
theorem test_A17_ldaDiy :
    becomes (({ T0 with d := 0x0010, db := 0x7E, y := 0x0001 }
        |>.holding [(0x000030, 0xFF), (0x000031, 0xFF), (0x7F0000, 0x0F), (0x7F0001, 0x10)])
        |>.running [0xB1, 0x20])
      (fun s => { s with a := 0x100F, pc := 0x8002 }) = true := by decide

/-- `95_test_vectors.md` A18: LDA. -/
theorem test_A18_ldaDil :
    becomes (({ T0 with d := 0x0010 }
        |>.holding [(0x000030, 0x00), (0x000031, 0x50), (0x000032, 0x7F), (0x7F5000, 0x11), (0x7F5001, 0x12)])
        |>.running [0xA7, 0x20])
      (fun s => { s with a := 0x1211, pc := 0x8002 }) = true := by decide

/-- `95_test_vectors.md` A19: LDA. -/
theorem test_A19_ldaDly :
    becomes (({ T0 with d := 0x0010, y := 0x0100 }
        |>.holding [(0x000030, 0x00), (0x000031, 0xFF), (0x000032, 0x7E), (0x7F0000, 0x13), (0x7F0001, 0x14)])
        |>.running [0xB7, 0x20])
      (fun s => { s with a := 0x1413, pc := 0x8002 }) = true := by decide

/-- `95_test_vectors.md` A20: LDA. -/
theorem test_A20_ldaSr :
    becomes (({ T0 with sp := 0x01F0 }.holding [(0x0001F3, 0x15), (0x0001F4, 0x16)]).running [0xA3, 0x03])
      (fun s => { s with a := 0x1615, pc := 0x8002 }) = true := by decide

/-- `95_test_vectors.md` A21: LDA. -/
theorem test_A21_ldaSiy :
    becomes (({ T0 with sp := 0x01F0, db := 0x7E, y := 0x0001 }
        |>.holding [(0x0001F1, 0x00), (0x0001F2, 0x20), (0x7E2001, 0x17), (0x7E2002, 0x18)])
        |>.running [0xB3, 0x01])
      (fun s => { s with a := 0x1817, pc := 0x8002 }) = true := by decide

/-- `95_test_vectors.md` A22: LDA. -/
theorem test_A22_ldaAbs :
    becomes (({ T0 with db := 0x12 }.holding [(0x12FFFF, 0x19), (0x130000, 0x1A)]).running [0xAD, 0xFF, 0xFF])
      (fun s => { s with a := 0x1A19, pc := 0x8003 }) = true := by decide

/-- `95_test_vectors.md` A23: LDA. -/
theorem test_A23_ldaImmM :
    becomes (({ T0 with pc := 0xFFFF, pb := 0x01 }.holding [(0x010000, 0x1B), (0x010001, 0x1C)]).running [0xA9])
      (fun s => { s with a := 0x1C1B, pc := 0x0002 }) = true := by decide

/-- `95_test_vectors.md` L2: LDA. -/
theorem test_L2_ldaImmM :
    becomes ({ T0 with p := Flags.ofByte 0x20, a := 0x1234 }.running [0xA9, 0x80])
      (fun s => { s with a := 0x1280, pc := 0x8002, p := Flags.ofByte 0xA0 }) = true := by decide

/-- `95_test_vectors.md` L4: LDX. -/
theorem test_L4_ldxImmX :
    becomes ({ T0 with p := Flags.ofByte 0x10, x := 0xAA55 }.running [0xA2, 0x7F])
      (fun s => { s with x := 0xAA7F, pc := 0x8002 }) = true := by decide

/-- `95_test_vectors.md` L5: LDY. -/
theorem test_L5_ldyImmX :
    becomes (T0.running [0xA0, 0x00, 0x00])
      (fun s => { s with pc := 0x8003, p := Flags.ofByte 0x02 }) = true := by decide

/-- `95_test_vectors.md` L6: STA. -/
theorem test_L6_staAbs :
    becomes ({ T0 with a := 0xBEEF }.running [0x8D, 0x00, 0x20])
      (fun s => { s with pc := 0x8003 }.holding [(0x002000, 0xEF), (0x002001, 0xBE)]) = true := by decide

/-- `95_test_vectors.md` L7: STA. -/
theorem test_L7_staAbs :
    becomes ({ T0 with a := 0xBEEF, p := Flags.ofByte 0x20 }.running [0x8D, 0x00, 0x20])
      (fun s => { s with pc := 0x8003 }.holding [(0x002000, 0xEF)]) = true := by decide

/-- `95_test_vectors.md` L8: STX. -/
theorem test_L8_stxDp :
    becomes ({ T0 with x := 0x1234, p := Flags.ofByte 0x10 }.running [0x86, 0x10])
      (fun s => { s with pc := 0x8002 }.holding [(0x000010, 0x34)]) = true := by decide

/-- `95_test_vectors.md` L9: STY. -/
theorem test_L9_styDp :
    becomes ({ T0 with y := 0x1234 }.running [0x84, 0x10])
      (fun s => { s with pc := 0x8002 }.holding [(0x000010, 0x34), (0x000011, 0x12)]) = true := by decide

/-- `95_test_vectors.md` L10: STZ. -/
theorem test_L10_stzAbs :
    becomes ((T0.holding [(0x002000, 0xFF), (0x002001, 0xFF)]).running [0x9C, 0x00, 0x20])
      (fun s => { s with pc := 0x8003 }.holding [(0x002000, 0x00), (0x002001, 0x00)]) = true := by decide

/-- `95_test_vectors.md` L11: STZ. -/
theorem test_L11_stzDp :
    becomes (({ T0 with p := Flags.ofByte 0x20 }.holding [(0x000010, 0xFF), (0x000011, 0xFF)]).running [0x64, 0x10])
      (fun s => { s with pc := 0x8002 }.holding [(0x000010, 0x00)]) = true := by decide

/-- `95_test_vectors.md` L12: TAX. -/
theorem test_L12_tax :
    becomes ({ T0 with a := 0xAB80, x := 0x5500, p := Flags.ofByte 0x10 }.running [0xAA])
      (fun s => { s with x := 0x5580, pc := 0x8001, p := Flags.ofByte 0x90 }) = true := by decide

/-- `95_test_vectors.md` L13: TAX. -/
theorem test_L13_tax :
    becomes ({ T0 with a := 0xAB80, p := Flags.ofByte 0x20 }.running [0xAA])
      (fun s => { s with x := 0xAB80, pc := 0x8001, p := Flags.ofByte 0xA0 }) = true := by decide

/-- `95_test_vectors.md` L14: TXA. -/
theorem test_L14_txa :
    becomes ({ T0 with a := 0x1200, x := 0x0034, p := Flags.ofByte 0x20 }.running [0x8A])
      (fun s => { s with a := 0x1234, pc := 0x8001 }) = true := by decide

/-- `95_test_vectors.md` L15: TXA. -/
theorem test_L15_txa :
    becomes ({ T0 with a := 0x1200, x := 0xFF34, p := Flags.ofByte 0x10 }.running [0x8A])
      (fun s => { s with a := 0x0034, pc := 0x8001 }) = true := by decide

/-- `95_test_vectors.md` L16: TYA. -/
theorem test_L16_tya :
    becomes ({ T0 with a := 0x0000, y := 0x8000 }.running [0x98])
      (fun s => { s with a := 0x8000, pc := 0x8001, p := Flags.ofByte 0x80 }) = true := by decide

/-- `95_test_vectors.md` L17: TAY. -/
theorem test_L17_tay :
    becomes ({ T0 with a := 0x8000 }.running [0xA8])
      (fun s => { s with y := 0x8000, pc := 0x8001, p := Flags.ofByte 0x80 }) = true := by decide

/-- `95_test_vectors.md` L18: TXY. -/
theorem test_L18_txy :
    becomes ({ T0 with x := 0x1234, p := Flags.ofByte 0x10, y := 0xEE00 }.running [0x9B])
      (fun s => { s with y := 0xEE34, pc := 0x8001 }) = true := by decide

/-- `95_test_vectors.md` L19: TYX. -/
theorem test_L19_tyx :
    becomes ({ T0 with y := 0x0000, x := 0x1111 }.running [0xBB])
      (fun s => { s with x := 0x0000, pc := 0x8001, p := Flags.ofByte 0x02 }) = true := by decide

/-- `95_test_vectors.md` L20: TSX. -/
theorem test_L20_tsx :
    becomes ({ T0 with sp := 0x1FF0 }.running [0xBA])
      (fun s => { s with x := 0x1FF0, pc := 0x8001 }) = true := by decide

/-- `95_test_vectors.md` L21: TSX. -/
theorem test_L21_tsx :
    becomes ({ T0 with sp := 0x1FF0, p := Flags.ofByte 0x10, x := 0xAA00 }.running [0xBA])
      (fun s => { s with x := 0xAAF0, pc := 0x8001, p := Flags.ofByte 0x90 }) = true := by decide

/-- `95_test_vectors.md` L23: TXS. -/
theorem test_L23_txs :
    becomes ({ T0 with e := true, x := 0x1FF0 }.running [0x9A])
      (fun s => { s with sp := 0x01F0, pc := 0x8001 }) = true := by decide

/-- `95_test_vectors.md` L24: TXS. -/
theorem test_L24_txs :
    becomes ({ T0 with x := 0xAAF0, p := Flags.ofByte 0x10 }.running [0x9A])
      (fun s => { s with sp := 0x00F0, pc := 0x8001 }) = true := by decide

/-- `95_test_vectors.md` L25: TCD. -/
theorem test_L25_tcd :
    becomes ({ T0 with a := 0x2100 }.running [0x5B])
      (fun s => { s with d := 0x2100, pc := 0x8001 }) = true := by decide

/-- `95_test_vectors.md` L26: TDC. -/
theorem test_L26_tdc :
    becomes ({ T0 with d := 0x0000, a := 0x5555 }.running [0x7B])
      (fun s => { s with a := 0x0000, pc := 0x8001, p := Flags.ofByte 0x02 }) = true := by decide

/-- `95_test_vectors.md` L27: TCS. -/
theorem test_L27_tcs :
    becomes ({ T0 with a := 0x0300, p := Flags.ofByte 0x20 }.running [0x1B])
      (fun s => { s with sp := 0x0300, pc := 0x8001 }) = true := by decide

/-- `95_test_vectors.md` L28: TCS. -/
theorem test_L28_tcs :
    becomes ({ T0 with e := true, a := 0x0380 }.running [0x1B])
      (fun s => { s with sp := 0x0180, pc := 0x8001 }) = true := by decide

/-- `95_test_vectors.md` L29: TSC. -/
theorem test_L29_tsc :
    becomes ({ T0 with sp := 0x8000, a := 0x0000 }.running [0x3B])
      (fun s => { s with a := 0x8000, pc := 0x8001, p := Flags.ofByte 0x80 }) = true := by decide

/-- `95_test_vectors.md` L30: XBA. -/
theorem test_L30_xba :
    becomes ({ T0 with a := 0x8001, p := Flags.ofByte 0x20 }.running [0xEB])
      (fun s => { s with a := 0x0180, pc := 0x8001, p := Flags.ofByte 0xA0 }) = true := by decide

/-- `95_test_vectors.md` L31: XBA. -/
theorem test_L31_xba :
    becomes ({ T0 with a := 0x00FF }.running [0xEB])
      (fun s => { s with a := 0xFF00, pc := 0x8001, p := Flags.ofByte 0x02 }) = true := by decide

/-- `95_test_vectors.md` M3: ADC. -/
theorem test_M3_adcImmM :
    becomes ({ T0 with a := 0x8000 }.running [0x69, 0x00, 0x80])
      (fun s => { s with a := 0x0000, pc := 0x8003, p := Flags.ofByte 0x43 }) = true := by decide

/-- `95_test_vectors.md` M4: ADC. -/
theorem test_M4_adcImmM :
    becomes ({ T0 with a := 0x12FF, p := Flags.ofByte 0x20 }.running [0x69, 0x01])
      (fun s => { s with a := 0x1200, pc := 0x8002, p := Flags.ofByte 0x23 }) = true := by decide

/-- `95_test_vectors.md` M9: SBC. -/
theorem test_M9_sbcImmM :
    becomes ({ T0 with a := 0x8000, p := Flags.ofByte 0x01 }.running [0xE9, 0x01, 0x00])
      (fun s => { s with a := 0x7FFF, pc := 0x8003, p := Flags.ofByte 0x41 }) = true := by decide

/-- `95_test_vectors.md` M10: SBC. -/
theorem test_M10_sbcImmM :
    becomes ({ T0 with a := 0x0005, p := Flags.ofByte 0x00 }.running [0xE9, 0x02, 0x00])
      (fun s => { s with a := 0x0002, pc := 0x8003, p := Flags.ofByte 0x01 }) = true := by decide

/-- `95_test_vectors.md` M12: CMP. -/
theorem test_M12_cmpImmM :
    becomes ({ T0 with a := 0x0010, p := Flags.ofByte 0x20 }.running [0xC9, 0x20])
      (fun s => { s with pc := 0x8002, p := Flags.ofByte 0xA0 }) = true := by decide

/-- `95_test_vectors.md` M14: CMP. -/
theorem test_M14_cmpImmM :
    becomes ({ T0 with a := 0x8000 }.running [0xC9, 0x01, 0x00])
      (fun s => { s with pc := 0x8003, p := Flags.ofByte 0x01 }) = true := by decide

/-- `95_test_vectors.md` M15: CPX. -/
theorem test_M15_cpxImmX :
    becomes ({ T0 with x := 0x0100 }.running [0xE0, 0x00, 0x01])
      (fun s => { s with pc := 0x8003, p := Flags.ofByte 0x03 }) = true := by decide

/-- `95_test_vectors.md` M16: CPY. -/
theorem test_M16_cpyImmX :
    becomes ({ T0 with y := 0xFF05, p := Flags.ofByte 0x10 }.running [0xC0, 0x06])
      (fun s => { s with pc := 0x8002, p := Flags.ofByte 0x90 }) = true := by decide

/-- `95_test_vectors.md` M17: AND. -/
theorem test_M17_andImmM :
    becomes ({ T0 with a := 0xF0F0 }.running [0x29, 0x0F, 0x0F])
      (fun s => { s with a := 0x0000, pc := 0x8003, p := Flags.ofByte 0x02 }) = true := by decide

/-- `95_test_vectors.md` M18: ORA. -/
theorem test_M18_oraImmM :
    becomes ({ T0 with a := 0x1201, p := Flags.ofByte 0x20 }.running [0x09, 0x80])
      (fun s => { s with a := 0x1281, pc := 0x8002, p := Flags.ofByte 0xA0 }) = true := by decide

/-- `95_test_vectors.md` M19: EOR. -/
theorem test_M19_eorImmM :
    becomes ({ T0 with a := 0x00FF, p := Flags.ofByte 0x20 }.running [0x49, 0xFF])
      (fun s => { s with a := 0x0000, pc := 0x8002, p := Flags.ofByte 0x22 }) = true := by decide

/-- `95_test_vectors.md` M20: BIT. -/
theorem test_M20_bitDp :
    becomes (({ T0 with a := 0x0001, p := Flags.ofByte 0x20 }.holding [(0x000010, 0xC0)]).running [0x24, 0x10])
      (fun s => { s with pc := 0x8002, p := Flags.ofByte 0xE2 }) = true := by decide

/-- `95_test_vectors.md` M21: BIT. -/
theorem test_M21_bitImmM :
    becomes ({ T0 with a := 0x0001, p := Flags.ofByte 0xE0 }.running [0x89, 0xC0])
      (fun s => { s with pc := 0x8002, p := Flags.ofByte 0xE2 }) = true := by decide

/-- `95_test_vectors.md` M22: BIT. -/
theorem test_M22_bitAbs :
    becomes (({ T0 with a := 0x0001 }.holding [(0x002000, 0x01), (0x002001, 0x40)]).running [0x2C, 0x00, 0x20])
      (fun s => { s with pc := 0x8003, p := Flags.ofByte 0x40 }) = true := by decide

/-- `95_test_vectors.md` M23: INC. -/
theorem test_M23_incAcc :
    becomes ({ T0 with a := 0x12FF, p := Flags.ofByte 0x20 }.running [0x1A])
      (fun s => { s with a := 0x1200, pc := 0x8001, p := Flags.ofByte 0x22 }) = true := by decide

/-- `95_test_vectors.md` M24: DEC. -/
theorem test_M24_decAcc :
    becomes ({ T0 with a := 0x0000 }.running [0x3A])
      (fun s => { s with a := 0xFFFF, pc := 0x8001, p := Flags.ofByte 0x80 }) = true := by decide

/-- `95_test_vectors.md` M25: INC. -/
theorem test_M25_incAbs :
    becomes ((T0.holding [(0x002000, 0xFF), (0x002001, 0x00)]).running [0xEE, 0x00, 0x20])
      (fun s => { s with pc := 0x8003 }.holding [(0x002000, 0x00), (0x002001, 0x01)]) = true := by decide

/-- `95_test_vectors.md` M26: DEC. -/
theorem test_M26_decDp :
    becomes ((T0.holding [(0x000010, 0x00), (0x000011, 0x00)]).running [0xC6, 0x10])
      (fun s => { s with pc := 0x8002, p := Flags.ofByte 0x80 }
        |>.holding [(0x000010, 0xFF), (0x000011, 0xFF)]) = true := by decide

/-- `95_test_vectors.md` M27: INC. -/
theorem test_M27_incDp :
    becomes (({ T0 with p := Flags.ofByte 0x20 }.holding [(0x000010, 0xFF), (0x000011, 0x77)]).running [0xE6, 0x10])
      (fun s => { s with pc := 0x8002, p := Flags.ofByte 0x22 }.holding [(0x000010, 0x00)]) = true := by decide

/-- `95_test_vectors.md` M28: INX. -/
theorem test_M28_inx :
    becomes ({ T0 with x := 0x12FF, p := Flags.ofByte 0x10 }.running [0xE8])
      (fun s => { s with x := 0x1200, pc := 0x8001, p := Flags.ofByte 0x12 }) = true := by decide

/-- `95_test_vectors.md` M29: INY. -/
theorem test_M29_iny :
    becomes ({ T0 with y := 0x7FFF }.running [0xC8])
      (fun s => { s with y := 0x8000, pc := 0x8001, p := Flags.ofByte 0x80 }) = true := by decide

/-- `95_test_vectors.md` M30: DEX. -/
theorem test_M30_dex :
    becomes ({ T0 with x := 0x0000 }.running [0xCA])
      (fun s => { s with x := 0xFFFF, pc := 0x8001, p := Flags.ofByte 0x80 }) = true := by decide

/-- `95_test_vectors.md` M31: DEY. -/
theorem test_M31_dey :
    becomes ({ T0 with y := 0xAB00, p := Flags.ofByte 0x10 }.running [0x88])
      (fun s => { s with y := 0xABFF, pc := 0x8001, p := Flags.ofByte 0x90 }) = true := by decide

/-- `95_test_vectors.md` M32: ASL. -/
theorem test_M32_aslAcc :
    becomes ({ T0 with a := 0x1281, p := Flags.ofByte 0x20 }.running [0x0A])
      (fun s => { s with a := 0x1202, pc := 0x8001, p := Flags.ofByte 0x21 }) = true := by decide

/-- `95_test_vectors.md` M33: ASL. -/
theorem test_M33_aslAcc :
    becomes ({ T0 with a := 0x4000 }.running [0x0A])
      (fun s => { s with a := 0x8000, pc := 0x8001, p := Flags.ofByte 0x80 }) = true := by decide

/-- `95_test_vectors.md` M34: LSR. -/
theorem test_M34_lsrAcc :
    becomes ({ T0 with a := 0x0001 }.running [0x4A])
      (fun s => { s with a := 0x0000, pc := 0x8001, p := Flags.ofByte 0x03 }) = true := by decide

/-- `95_test_vectors.md` M35: ROL. -/
theorem test_M35_rolAcc :
    becomes ({ T0 with a := 0x0080, p := Flags.ofByte 0x21 }.running [0x2A])
      (fun s => { s with a := 0x0001, pc := 0x8001 }) = true := by decide

/-- `95_test_vectors.md` M36: ROR. -/
theorem test_M36_rorAcc :
    becomes ({ T0 with a := 0x0001, p := Flags.ofByte 0x01 }.running [0x6A])
      (fun s => { s with a := 0x8000, pc := 0x8001, p := Flags.ofByte 0x81 }) = true := by decide

/-- `95_test_vectors.md` M37: ROR. -/
theorem test_M37_rorAbs :
    becomes (({ T0 with p := Flags.ofByte 0x01 }.holding [(0x002000, 0x02), (0x002001, 0x00)])
        |>.running [0x6E, 0x00, 0x20])
      (fun s => { s with pc := 0x8003, p := Flags.ofByte 0x80 }
        |>.holding [(0x002000, 0x01), (0x002001, 0x80)]) = true := by decide

/-- `95_test_vectors.md` M38: ASL. -/
theorem test_M38_aslDp :
    becomes (({ T0 with p := Flags.ofByte 0x20 }.holding [(0x000010, 0x80)]).running [0x06, 0x10])
      (fun s => { s with pc := 0x8002, p := Flags.ofByte 0x23 }.holding [(0x000010, 0x00)]) = true := by decide

/-- `95_test_vectors.md` M39: TSB. -/
theorem test_M39_tsbDp :
    becomes (({ T0 with a := 0x000F, p := Flags.ofByte 0x20 }.holding [(0x000010, 0xF0)]).running [0x04, 0x10])
      (fun s => { s with pc := 0x8002, p := Flags.ofByte 0x22 }.holding [(0x000010, 0xFF)]) = true := by decide

/-- `95_test_vectors.md` M40: TRB. -/
theorem test_M40_trbDp :
    becomes (({ T0 with a := 0x000F, p := Flags.ofByte 0x20 }.holding [(0x000010, 0xFF)]).running [0x14, 0x10])
      (fun s => { s with pc := 0x8002 }.holding [(0x000010, 0xF0)]) = true := by decide

/-- `95_test_vectors.md` M41: TRB. -/
theorem test_M41_trbAbs :
    becomes (({ T0 with a := 0x00FF }.holding [(0x002000, 0x00), (0x002001, 0xFF)]).running [0x1C, 0x00, 0x20])
      (fun s => { s with pc := 0x8003, p := Flags.ofByte 0x02 }
        |>.holding [(0x002000, 0x00), (0x002001, 0xFF)]) = true := by decide

/-- `95_test_vectors.md` C1: BPL. -/
theorem test_C1_bpl :
    becomes ({ T0 with p := Flags.ofByte 0x00 }.running [0x10, 0x05])
      (fun s => { s with pc := 0x8007 }) = true := by decide

/-- `95_test_vectors.md` C2: BPL. -/
theorem test_C2_bpl :
    becomes ({ T0 with p := Flags.ofByte 0x80 }.running [0x10, 0x05])
      (fun s => { s with pc := 0x8002 }) = true := by decide

/-- `95_test_vectors.md` C3: BMI. -/
theorem test_C3_bmi :
    becomes ({ T0 with p := Flags.ofByte 0x80 }.running [0x30, 0xFC])
      (fun s => { s with pc := 0x7FFE }) = true := by decide

/-- `95_test_vectors.md` C4: BNE. -/
theorem test_C4_bne :
    becomes ({ T0 with p := Flags.ofByte 0x02 }.running [0xD0, 0x10])
      (fun s => { s with pc := 0x8002 }) = true := by decide

/-- `95_test_vectors.md` C5: BNE. -/
theorem test_C5_bne :
    becomes ({ T0 with p := Flags.ofByte 0x00, pc := 0x8010 }.running [0xD0, 0xFD])
      (fun s => { s with pc := 0x800F }) = true := by decide

/-- `95_test_vectors.md` C6: BEQ. -/
theorem test_C6_beq :
    becomes ({ T0 with p := Flags.ofByte 0x02 }.running [0xF0, 0x7F])
      (fun s => { s with pc := 0x8081 }) = true := by decide

/-- `95_test_vectors.md` C7: BEQ. -/
theorem test_C7_beq :
    becomes ({ T0 with p := Flags.ofByte 0x02 }.running [0xF0, 0x80])
      (fun s => { s with pc := 0x7F82 }) = true := by decide

/-- `95_test_vectors.md` C8: BCC. -/
theorem test_C8_bcc :
    becomes ({ T0 with p := Flags.ofByte 0x01 }.running [0x90, 0x02])
      (fun s => { s with pc := 0x8002 }) = true := by decide

/-- `95_test_vectors.md` C9: BCS. -/
theorem test_C9_bcs :
    becomes ({ T0 with p := Flags.ofByte 0x01 }.running [0xB0, 0x02])
      (fun s => { s with pc := 0x8004 }) = true := by decide

/-- `95_test_vectors.md` C10: BVC. -/
theorem test_C10_bvc :
    becomes ({ T0 with p := Flags.ofByte 0x40 }.running [0x50, 0x02])
      (fun s => { s with pc := 0x8002 }) = true := by decide

/-- `95_test_vectors.md` C11: BVS. -/
theorem test_C11_bvs :
    becomes ({ T0 with p := Flags.ofByte 0x40 }.running [0x70, 0x02])
      (fun s => { s with pc := 0x8004 }) = true := by decide

/-- `95_test_vectors.md` C12: BRA. -/
theorem test_C12_bra :
    becomes ({ T0 with pc := 0xFFFE, pb := 0x12 }.running [0x80, 0x10])
      (fun s => { s with pc := 0x0010 }) = true := by decide

/-- `95_test_vectors.md` C13: BRA. -/
theorem test_C13_bra :
    becomes (T0.running [0x80, 0xFE])
      (fun s => { s with pc := 0x8000 }) = true := by decide

/-- `95_test_vectors.md` C14: BRL. -/
theorem test_C14_brl :
    becomes (T0.running [0x82, 0xFD, 0xFF])
      (fun s => { s with pc := 0x8000 }) = true := by decide

/-- `95_test_vectors.md` C15: BRL. -/
theorem test_C15_brl :
    becomes (T0.running [0x82, 0x00, 0x10])
      (fun s => { s with pc := 0x9003 }) = true := by decide

/-- `95_test_vectors.md` C16: JMP. -/
theorem test_C16_jmpAbsPb :
    becomes ({ T0 with pb := 0x80 }.running [0x4C, 0x34, 0x12])
      (fun s => { s with pc := 0x1234 }) = true := by decide

/-- `95_test_vectors.md` C17: JMP. -/
theorem test_C17_jmpAbi :
    becomes (({ T0 with pb := 0x80 }.holding [(0x000200, 0x78), (0x000201, 0x56)]).running [0x6C, 0x00, 0x02])
      (fun s => { s with pc := 0x5678 }) = true := by decide

/-- `95_test_vectors.md` C18: JMP. -/
theorem test_C18_jmpAxi :
    becomes (({ T0 with pb := 0x80, x := 0x0004, pc := 0x8000 }.holding [(0x809004, 0x00), (0x809005, 0xA0)])
        |>.running [0x7C, 0x00, 0x90])
      (fun s => { s with pc := 0xA000 }) = true := by decide

/-- `95_test_vectors.md` C19: JML. -/
theorem test_C19_jmlAblPc :
    becomes (T0.running [0x5C, 0x00, 0x80, 0xC0])
      (fun s => { s with pb := 0xC0, pc := 0x8000 }) = true := by decide

/-- `95_test_vectors.md` C20: JML. -/
theorem test_C20_jmlAil :
    becomes ((T0.holding [(0x000200, 0x00), (0x000201, 0x80), (0x000202, 0xC1)]).running [0xDC, 0x00, 0x02])
      (fun s => { s with pb := 0xC1, pc := 0x8000 }) = true := by decide

/-- `95_test_vectors.md` C21: JSR. -/
theorem test_C21_jsrAbsPb :
    becomes (T0.running [0x20, 0x00, 0x90])
      (fun s => { s with sp := 0x01FD, pc := 0x9000 }
        |>.holding [(0x0001FE, 0x02), (0x0001FF, 0x80)]) = true := by decide

/-- `95_test_vectors.md` C22: JSR. -/
theorem test_C22_jsrAbsPb :
    becomes ({ T0 with e := true, sp := 0x0100 }.running [0x20, 0x00, 0x90])
      (fun s => { s with sp := 0x01FE, pc := 0x9000 }
        |>.holding [(0x000100, 0x80), (0x0001FF, 0x02)]) = true := by decide

/-- `95_test_vectors.md` C23: JSR. -/
theorem test_C23_jsrAxi :
    becomes (({ T0 with pb := 0x80, x := 0x0002 }.holding [(0x809002, 0x00), (0x809003, 0xB0)])
        |>.running [0xFC, 0x00, 0x90])
      (fun s => { s with sp := 0x01FD, pc := 0xB000 }
        |>.holding [(0x0001FE, 0x02), (0x0001FF, 0x80)]) = true := by decide

/-- `95_test_vectors.md` C24: JSL. -/
theorem test_C24_jsl :
    becomes ({ T0 with pb := 0x80, sp := 0x1FFF }.running [0x22, 0x00, 0x90, 0xC1])
      (fun s => { s with sp := 0x1FFC, pb := 0xC1, pc := 0x9000 }
        |>.holding [(0x001FFD, 0x03), (0x001FFE, 0x80), (0x001FFF, 0x80)]) = true := by decide

/-- `95_test_vectors.md` C25: RTS. -/
theorem test_C25_rts :
    becomes (({ T0 with sp := 0x01FD, pc := 0x9000 }.holding [(0x0001FE, 0x02), (0x0001FF, 0x80)]).running [0x60])
      (fun s => { s with sp := 0x01FF, pc := 0x8003 }) = true := by decide

/-- `95_test_vectors.md` C26: RTS. -/
theorem test_C26_rts :
    becomes (({ T0 with sp := 0x01FD, pc := 0x9000 }.holding [(0x0001FE, 0xFF), (0x0001FF, 0xFF)]).running [0x60])
      (fun s => { s with sp := 0x01FF, pc := 0x0000 }) = true := by decide

/-- `95_test_vectors.md` C27: RTL. -/
theorem test_C27_rtl :
    becomes (({ T0 with sp := 0x1FFC, pb := 0xC1, pc := 0x9000 }
        |>.holding [(0x001FFD, 0x03), (0x001FFE, 0x80), (0x001FFF, 0x80)])
        |>.running [0x6B])
      (fun s => { s with sp := 0x1FFF, pb := 0x80, pc := 0x8004 }) = true := by decide

/-- `95_test_vectors.md` S1: PHA. -/
theorem test_S1_pha :
    becomes ({ T0 with a := 0x1234 }.running [0x48])
      (fun s => { s with sp := 0x01FD, pc := 0x8001 }
        |>.holding [(0x0001FE, 0x34), (0x0001FF, 0x12)]) = true := by decide

/-- `95_test_vectors.md` S2: PHA. -/
theorem test_S2_pha :
    becomes ({ T0 with a := 0x1234, p := Flags.ofByte 0x20 }.running [0x48])
      (fun s => { s with sp := 0x01FE, pc := 0x8001 }.holding [(0x0001FF, 0x34)]) = true := by decide

/-- `95_test_vectors.md` S3: PHX. -/
theorem test_S3_phx :
    becomes ({ T0 with x := 0xABCD }.running [0xDA])
      (fun s => { s with sp := 0x01FD, pc := 0x8001 }
        |>.holding [(0x0001FE, 0xCD), (0x0001FF, 0xAB)]) = true := by decide

/-- `95_test_vectors.md` S4: PHY. -/
theorem test_S4_phy :
    becomes ({ T0 with y := 0xABCD, p := Flags.ofByte 0x10 }.running [0x5A])
      (fun s => { s with sp := 0x01FE, pc := 0x8001 }.holding [(0x0001FF, 0xCD)]) = true := by decide

/-- `95_test_vectors.md` S5: PHP. -/
theorem test_S5_php :
    becomes ({ T0 with p := Flags.ofByte 0xB4 }.running [0x08])
      (fun s => { s with sp := 0x01FE, pc := 0x8001 }.holding [(0x0001FF, 0xB4)]) = true := by decide

/-- `95_test_vectors.md` S6: PHP. -/
theorem test_S6_php :
    becomes ({ T0 with e := true, p := Flags.ofByte 0x00 }.running [0x08])
      (fun s => { s with sp := 0x01FE, pc := 0x8001 }.holding [(0x0001FF, 0x00)]) = true := by decide

/-- `95_test_vectors.md` S7: PHB. -/
theorem test_S7_phb :
    becomes ({ T0 with db := 0x7E }.running [0x8B])
      (fun s => { s with sp := 0x01FE, pc := 0x8001 }.holding [(0x0001FF, 0x7E)]) = true := by decide

/-- `95_test_vectors.md` S8: PHD. -/
theorem test_S8_phd :
    becomes ({ T0 with d := 0x2100, sp := 0x1FFF }.running [0x0B])
      (fun s => { s with sp := 0x1FFD, pc := 0x8001 }
        |>.holding [(0x001FFE, 0x00), (0x001FFF, 0x21)]) = true := by decide

/-- `95_test_vectors.md` S9: PHK. -/
theorem test_S9_phk :
    becomes ({ T0 with pb := 0x80 }.running [0x4B])
      (fun s => { s with sp := 0x01FE, pc := 0x8001 }.holding [(0x0001FF, 0x80)]) = true := by decide

/-- `95_test_vectors.md` S10: PHD. -/
theorem test_S10_phd :
    becomes ({ T0 with e := true, sp := 0x0100, d := 0x1234 }.running [0x0B])
      (fun s => { s with sp := 0x01FE, pc := 0x8001 }
        |>.holding [(0x000100, 0x12), (0x0001FF, 0x34)]) = true := by decide

/-- `95_test_vectors.md` S11: PLA. -/
theorem test_S11_pla :
    becomes (({ T0 with a := 0x5500, p := Flags.ofByte 0x20, sp := 0x01FE }.holding [(0x0001FF, 0x80)])
        |>.running [0x68])
      (fun s => { s with a := 0x5580, sp := 0x01FF, pc := 0x8001, p := Flags.ofByte 0xA0 }) = true := by decide

/-- `95_test_vectors.md` S12: PLA. -/
theorem test_S12_pla :
    becomes (({ T0 with sp := 0x01FD }.holding [(0x0001FE, 0x00), (0x0001FF, 0x00)]).running [0x68])
      (fun s => { s with sp := 0x01FF, pc := 0x8001, p := Flags.ofByte 0x02 }) = true := by decide

/-- `95_test_vectors.md` S13: PLX. -/
theorem test_S13_plx :
    becomes (({ T0 with sp := 0x01FD }.holding [(0x0001FE, 0x34), (0x0001FF, 0x92)]).running [0xFA])
      (fun s => { s with x := 0x9234, sp := 0x01FF, pc := 0x8001, p := Flags.ofByte 0x80 }) = true := by decide

/-- `95_test_vectors.md` S14: PLY. -/
theorem test_S14_ply :
    becomes (({ T0 with sp := 0x01FE, p := Flags.ofByte 0x10, y := 0x7700 }.holding [(0x0001FF, 0x01)])
        |>.running [0x7A])
      (fun s => { s with y := 0x7701, sp := 0x01FF, pc := 0x8001 }) = true := by decide

/-- `95_test_vectors.md` S15: PLP. -/
theorem test_S15_plp :
    becomes (({ T0 with sp := 0x01FE, p := Flags.ofByte 0x30 }.holding [(0x0001FF, 0x00)]).running [0x28])
      (fun s => { s with sp := 0x01FF, pc := 0x8001, p := Flags.ofByte 0x00 }) = true := by decide

/-- `95_test_vectors.md` S16: PLP. -/
theorem test_S16_plp :
    becomes (({ T0 with e := true, sp := 0x01FE, p := Flags.ofByte 0x30 }.holding [(0x0001FF, 0xCF)]).running [0x28])
      (fun s => { s with sp := 0x01FF, pc := 0x8001, p := Flags.ofByte 0xCF }) = true := by decide

/-- `95_test_vectors.md` S17: PLB. -/
theorem test_S17_plb :
    becomes (({ T0 with sp := 0x01FE }.holding [(0x0001FF, 0x80)]).running [0xAB])
      (fun s => { s with sp := 0x01FF, db := 0x80, pc := 0x8001, p := Flags.ofByte 0x80 }) = true := by decide

/-- `95_test_vectors.md` S18: PLD. -/
theorem test_S18_pld :
    becomes (({ T0 with sp := 0x01FD }.holding [(0x0001FE, 0x00), (0x0001FF, 0x00)]).running [0x2B])
      (fun s => { s with sp := 0x01FF, pc := 0x8001, p := Flags.ofByte 0x02 }) = true := by decide

/-- `95_test_vectors.md` S19: PEA. -/
theorem test_S19_pea :
    becomes (T0.running [0xF4, 0x34, 0x12])
      (fun s => { s with sp := 0x01FD, pc := 0x8003 }
        |>.holding [(0x0001FE, 0x34), (0x0001FF, 0x12)]) = true := by decide

/-- `95_test_vectors.md` S20: PEI. -/
theorem test_S20_pei :
    becomes (({ T0 with d := 0x0000 }.holding [(0x000010, 0x78), (0x000011, 0x56)]).running [0xD4, 0x10])
      (fun s => { s with sp := 0x01FD, pc := 0x8002 }
        |>.holding [(0x0001FE, 0x78), (0x0001FF, 0x56)]) = true := by decide

/-- `95_test_vectors.md` S21: PER. -/
theorem test_S21_per :
    becomes (T0.running [0x62, 0x10, 0x00])
      (fun s => { s with sp := 0x01FD, pc := 0x8003 }
        |>.holding [(0x0001FE, 0x13), (0x0001FF, 0x80)]) = true := by decide

/-- `95_test_vectors.md` S22: PER. -/
theorem test_S22_per :
    becomes (T0.running [0x62, 0xFD, 0xFF])
      (fun s => { s with sp := 0x01FD, pc := 0x8003 }
        |>.holding [(0x0001FE, 0x00), (0x0001FF, 0x80)]) = true := by decide

/-- `95_test_vectors.md` F1: CLC. -/
theorem test_F1_clc :
    becomes ({ T0 with p := Flags.ofByte 0xFF }.running [0x18])
      (fun s => { s with pc := 0x8001, p := Flags.ofByte 0xFE }) = true := by decide

/-- `95_test_vectors.md` F2: SEC. -/
theorem test_F2_sec :
    becomes ({ T0 with p := Flags.ofByte 0x00 }.running [0x38])
      (fun s => { s with pc := 0x8001, p := Flags.ofByte 0x01 }) = true := by decide

/-- `95_test_vectors.md` F3: CLI. -/
theorem test_F3_cli :
    becomes ({ T0 with p := Flags.ofByte 0xFF }.running [0x58])
      (fun s => { s with pc := 0x8001, p := Flags.ofByte 0xFB }) = true := by decide

/-- `95_test_vectors.md` F4: SEI. -/
theorem test_F4_sei :
    becomes ({ T0 with p := Flags.ofByte 0x00 }.running [0x78])
      (fun s => { s with pc := 0x8001, p := Flags.ofByte 0x04 }) = true := by decide

/-- `95_test_vectors.md` F5: CLD. -/
theorem test_F5_cld :
    becomes ({ T0 with p := Flags.ofByte 0xFF }.running [0xD8])
      (fun s => { s with pc := 0x8001, p := Flags.ofByte 0xF7 }) = true := by decide

/-- `95_test_vectors.md` F6: SED. -/
theorem test_F6_sed :
    becomes ({ T0 with p := Flags.ofByte 0x00 }.running [0xF8])
      (fun s => { s with pc := 0x8001, p := Flags.ofByte 0x08 }) = true := by decide

/-- `95_test_vectors.md` F7: CLV. -/
theorem test_F7_clv :
    becomes ({ T0 with p := Flags.ofByte 0xFF }.running [0xB8])
      (fun s => { s with pc := 0x8001, p := Flags.ofByte 0xBF }) = true := by decide

/-- `95_test_vectors.md` F8: REP. -/
theorem test_F8_rep :
    becomes ({ T0 with p := Flags.ofByte 0x34 }.running [0xC2, 0x30])
      (fun s => { s with pc := 0x8002, p := Flags.ofByte 0x04 }) = true := by decide

/-- `95_test_vectors.md` F9: SEP. -/
theorem test_F9_sep :
    becomes ({ T0 with p := Flags.ofByte 0x04, x := 0x1234 }.running [0xE2, 0x10])
      (fun s => { s with pc := 0x8002, p := Flags.ofByte 0x14 }) = true := by decide

/-- `95_test_vectors.md` F11: REP. -/
theorem test_F11_rep :
    becomes ({ T0 with e := true, p := Flags.ofByte 0x30 }.running [0xC2, 0x30])
      (fun s => { s with pc := 0x8002, p := Flags.ofByte 0x00 }) = true := by decide

/-- `95_test_vectors.md` F12: XCE. -/
theorem test_F12_xce :
    becomes ({ T0 with e := true, p := Flags.ofByte 0x34, sp := 0x01FF }.running [0xFB])
      (fun s => { s with pc := 0x8001, p := Flags.ofByte 0x35, e := false }) = true := by decide

/-- `95_test_vectors.md` F13: XCE. -/
theorem test_F13_xce :
    becomes ({ T0 with e := false, p := Flags.ofByte 0x01, sp := 0x1FF0, x := 0x1234 }.running [0xFB])
      (fun s => { s with sp := 0x01F0, pc := 0x8001, p := Flags.ofByte 0x00, e := true }) = true := by decide

/-- `95_test_vectors.md` F16: NOP. -/
theorem test_F16_nop :
    becomes (T0.running [0xEA])
      (fun s => { s with pc := 0x8001 }) = true := by decide

/-- `95_test_vectors.md` F18: WDM. -/
theorem test_F18_wdm :
    becomes ({ T0 with cfg := { Config.default with wdmBehaviour := .nop2 } }.running [0x42, 0x00])
      (fun s => { s with pc := 0x8002 }) = true := by decide

/-- `95_test_vectors.md` B1: MVN. -/
theorem test_B1_mvn :
    becomes (({ T0 with a := 0x0001, x := 0x1000, y := 0x2000 }.holding [(0x7E1000, 0xAA), (0x7E1001, 0xBB)])
        |>.running [0x54, 0x7F, 0x7E])
      (fun s => { s with a := 0x0000, x := 0x1001, y := 0x2001, db := 0x7F, pc := 0x8000 }
        |>.holding [(0x7F2000, 0xAA)]) = true := by decide

/-- `95_test_vectors.md` B3: MVP. -/
theorem test_B3_mvp :
    becomes (({ T0 with a := 0x0000, x := 0x10FF, y := 0x20FF }.holding [(0x0010FF, 0x5A)])
        |>.running [0x44, 0x00, 0x00])
      (fun s => { s with a := 0xFFFF, x := 0x10FE, y := 0x20FE, pc := 0x8003 }
        |>.holding [(0x0020FF, 0x5A)]) = true := by decide

/-- `95_test_vectors.md` B5: MVN. -/
theorem test_B5_mvn :
    becomes ({ T0 with a := 0xFFFF, x := 0x0000, y := 0x8000 }.running [0x54, 0x7F, 0x7E])
      (fun s => { s with a := 0xFFFE, x := 0x0001, y := 0x8001, db := 0x7F, pc := 0x8000 }
        |>.holding [(0x7F8000, 0x00)]) = true := by decide

/-- `95_test_vectors.md` I1: BRK. -/
theorem test_I1_brk :
    becomes (({ T0 with pb := 0x80, pc := 0x9000, sp := 0x1FFF, p := Flags.ofByte 0x09 }
        |>.holding [(0x00FFE6, 0x00), (0x00FFE7, 0xA0)])
        |>.running [0x00, 0xAB])
      (fun s => { s with sp := 0x1FFB, pb := 0x00, pc := 0xA000, p := Flags.ofByte 0x05 }
        |>.holding [(0x001FFC, 0x09), (0x001FFD, 0x02), (0x001FFE, 0x90), (0x001FFF, 0x80)]) = true := by decide

/-- `95_test_vectors.md` I3: BRK. -/
theorem test_I3_brk :
    becomes (({ T0 with e := true, pc := 0x9000, p := Flags.ofByte 0x3F, pb := 0x05 }
        |>.holding [(0x00FFFE, 0x34), (0x00FFFF, 0x12)])
        |>.running [0x00, 0x00])
      (fun s => { s with sp := 0x01FC, pc := 0x1234, p := Flags.ofByte 0x37 }
        |>.holding [(0x0001FD, 0x3F), (0x0001FE, 0x02), (0x0001FF, 0x90)]) = true := by decide

/-- `95_test_vectors.md` I4: COP. -/
theorem test_I4_cop :
    becomes (({ T0 with pb := 0x80, pc := 0x9000, sp := 0x1FFF, p := Flags.ofByte 0x08 }
        |>.holding [(0x00FFE4, 0x00), (0x00FFE5, 0xB0)])
        |>.running [0x02, 0x01])
      (fun s => { s with sp := 0x1FFB, pb := 0x00, pc := 0xB000, p := Flags.ofByte 0x04 }
        |>.holding [(0x001FFC, 0x08), (0x001FFD, 0x02), (0x001FFE, 0x90), (0x001FFF, 0x80)]) = true := by decide

/-- `95_test_vectors.md` I5: COP. -/
theorem test_I5_cop :
    becomes (({ T0 with e := true, pc := 0x9000, p := Flags.ofByte 0x20 }
        |>.holding [(0x00FFF4, 0x00), (0x00FFF5, 0xB0)])
        |>.running [0x02, 0x01])
      (fun s => { s with sp := 0x01FC, pc := 0xB000, p := Flags.ofByte 0x24 }
        |>.holding [(0x0001FD, 0x20), (0x0001FE, 0x02), (0x0001FF, 0x90)]) = true := by decide

/-- `95_test_vectors.md` I6: RTI. -/
theorem test_I6_rti :
    becomes (({ T0 with sp := 0x1FFB, pc := 0xA000, p := Flags.ofByte 0x05 }
        |>.holding [(0x001FFC, 0x09), (0x001FFD, 0x02), (0x001FFE, 0x90), (0x001FFF, 0x80)])
        |>.running [0x40])
      (fun s => { s with sp := 0x1FFF, pb := 0x80, pc := 0x9002, p := Flags.ofByte 0x09 }) = true := by decide

/-- `95_test_vectors.md` I7: RTI. -/
theorem test_I7_rti :
    becomes (({ T0 with e := true, sp := 0x01FC, pc := 0x1234, p := Flags.ofByte 0x24, pb := 0x05 }
        |>.holding [(0x0001FD, 0x30), (0x0001FE, 0x02), (0x0001FF, 0x90)])
        |>.running [0x40])
      (fun s => { s with sp := 0x01FF, pc := 0x9002, p := Flags.ofByte 0x30 }) = true := by decide

/-- `95_test_vectors.md` I8: WAI. -/
theorem test_I8_wai :
    becomes (T0.running [0xCB])
      (fun s => { s with pc := 0x8001, run := .waiting }) = true := by decide

/-- `95_test_vectors.md` I9: STP. -/
theorem test_I9_stp :
    becomes (T0.running [0xDB])
      (fun s => { s with pc := 0x8001, run := .stopped }) = true := by decide

/-! ## Fatal errors (table V-E), over the Bus that table describes -/

/-- Banks `00` to `7D` but `50`: ROM from 0x8000, RAM below; bank `50` in no region; RAM above `7D`. -/
def mapE : List Region :=
  [{ bankLo := 0x00, bankHi := 0x4F, offLo := 0x8000, offHi := 0xFFFF, kind := .rom, base := 0, stride := 0, bankOrigin := 0 },
   { bankLo := 0x51, bankHi := 0x7D, offLo := 0x8000, offHi := 0xFFFF, kind := .rom, base := 0, stride := 0, bankOrigin := 0 },
   { bankLo := 0x00, bankHi := 0x4F, offLo := 0x0000, offHi := 0x7FFF, kind := .workRam, base := 0, stride := 0x10000,
     bankOrigin := 0 },
   { bankLo := 0x51, bankHi := 0x7D, offLo := 0x0000, offHi := 0x7FFF, kind := .workRam, base := 0x510000,
     stride := 0x10000, bankOrigin := 0 },
   { bankLo := 0x7E, bankHi := 0xFF, offLo := 0x0000, offHi := 0xFFFF, kind := .workRam, base := 0x7E0000,
     stride := 0x10000, bankOrigin := 0 }]

/-- T0 over that Bus, with an image of 126 half banks. -/
def E0 : State := { T0 with cfg := { Config.default with regionMap := mapE, imageSize := 0x3F0000 } }

/-- E1. -/
theorem test_E1_rom_write :
    stopsWith (step ({ E0 with a := 0x1234 }.running [0x8D, 0x00, 0x90])) (.writeToReadOnly 0x009000)
      (fun b => b.wram.isEmpty) = true := by decide

/-- E2: the low byte is stored before the failure. -/
theorem test_E2_partial_store :
    stopsWith (step ({ E0 with a := 0x1234 }.running [0x8D, 0xFF, 0x7F])) (.writeToReadOnly 0x008000)
      (fun b => b.wram == [(0x7FFF, 0x34)]) = true := by decide

/-- E3. -/
theorem test_E3_unmapped_read :
    stopsWith (step (E0.running [0xAF, 0x00, 0x00, 0x50])) (.unmappedAddress 0x500000) (fun _ => true) = true := by decide

/-- E4: the stack is in ROM. -/
theorem test_E4_push_to_rom :
    stopsWith (step ({ E0 with sp := 0x8001 }.running [0x20, 0x00, 0x90])) (.writeToReadOnly 0x008001)
      (fun _ => true) = true := by decide

/-- E5: the default of `WDM`. -/
theorem test_E5_wdm_fatal :
    stopsWith (step (E0.running [0x42, 0x00])) (.decodeError 0x42) (fun _ => true) = true := by decide

/-- E6: after a fatal error neither `step()` nor `reset()` does anything. -/
theorem test_E6_halted_stays :
    nextIs (step { E0 with run := .halted (.writeToReadOnly 0x009000) })
      { E0 with run := .halted (.writeToReadOnly 0x009000) } &&
    nextIs (hostReset { E0 with run := .halted (.writeToReadOnly 0x009000) })
      { E0 with run := .halted (.writeToReadOnly 0x009000) } = true := by decide

/-- `60_exceptions.md` R320: the host's `step()` records the fatal error of E1 in `run`. -/
theorem test_hostStep_halts :
    haltedWith (hostStep (E0.running [0x42, 0x00])) (.decodeError 0x42) = true := by decide

/-- `20_memory.md` R55, example X8 of `95_test_vectors.md`: Lo, `01:FFFF` is byte 0xFFFF of the image. -/
theorem test_X8_lo : locate E0.cfg 0x01FFFF = .rom 0xFFFF := by decide

/-- X8: Hi, `02:9234` is byte 0x29234 of the image. -/
theorem test_X8_hi : locate { E0.cfg with mapFamily := .hi } 0x029234 = .rom 0x29234 := by decide

/-! ## Hardware interrupts (table V-X) and the reset (table V-R) -/

/-- T0 with `INTERRUPT_INPUTS`. -/
def X0 : State := { T0 with cfg := { Config.default with interruptInputs := true } }

/-- X1i. -/
theorem test_X1i_nmi :
    nextIs (interrupt .nmi ({ X0 with pb := 0x80, pc := 0x9000, sp := 0x1FFF, p := Flags.ofByte 0x01 }.holding
        [(0x00FFEB, 0xC0)]))
      ({ X0 with pb := 0x00, pc := 0xC000, sp := 0x1FFB, p := Flags.ofByte 0x05 }.holding
        [(0x00FFEB, 0xC0), (0x001FFF, 0x80), (0x001FFE, 0x90), (0x001FFD, 0x00), (0x001FFC, 0x01)]) = true := by decide

/-- X2i. -/
theorem test_X2i_irq_masked :
    nextIs (interrupt .irq { X0 with p := Flags.ofByte 0x04 }) { X0 with p := Flags.ofByte 0x04 } = true := by decide

/-- X3i. -/
theorem test_X3i_irq_emulation :
    nextIs (interrupt .irq ({ X0 with e := true, pb := 0x05, pc := 0x9000, p := Flags.ofByte 0x31 }.holding
        [(0x00FFFE, 0x34), (0x00FFFF, 0x12)]))
      ({ X0 with e := true, pb := 0x05, pc := 0x1234, sp := 0x01FC, p := Flags.ofByte 0x35 }.holding
        [(0x00FFFE, 0x34), (0x00FFFF, 0x12), (0x0001FF, 0x90), (0x0001FE, 0x00), (0x0001FD, 0x21)]) = true := by decide

/-- X4i, its second `step()`: nothing changes in Waiting. -/
theorem test_X4i_waiting : nextIs (step { X0 with run := .waiting }) { X0 with run := .waiting } = true := by decide

/-- X5i. -/
theorem test_X5i_masked_irq_wakes :
    nextIs (interrupt .irq { X0 with run := .waiting, pc := 0x8001, p := Flags.ofByte 0x04 })
      { X0 with run := .running, pc := 0x8001, p := Flags.ofByte 0x04 } = true := by decide

/-- X6i. -/
theorem test_X6i_nmi_wakes :
    nextIs (interrupt .nmi ({ X0 with run := .waiting, pc := 0x8001, p := Flags.ofByte 0x04 }.holding [(0x00FFEB, 0xC0)]))
      ({ X0 with pc := 0xC000, sp := 0x01FB, p := Flags.ofByte 0x04 }.holding
        [(0x00FFEB, 0xC0), (0x0001FE, 0x80), (0x0001FD, 0x01), (0x0001FC, 0x04)]) = true := by decide

/-- X7i, its last operations: nothing wakes a stopped machine but a reset. -/
theorem test_X7i_stopped :
    nextIs (interrupt .nmi { X0 with run := .stopped }) { X0 with run := .stopped } = true := by decide

/-- X0 over the Bus of table V-E, its stack in ROM. -/
def XE : State := { E0 with sp := 0x8001, cfg := { E0.cfg with interruptInputs := true } }

/-- `60_exceptions.md` R311, R320: a fatal error of a hardware entry is recorded in `run`. -/
theorem test_interrupt_halts : haltedWith (interrupt .nmi XE) (.writeToReadOnly 0x008001) = true := by decide

/-- `10_state.md` R31, R34: no write of the host ends Halted. -/
theorem test_hostWrite_keeps_halted :
    hostWrite (.run .running) { T0 with run := .halted (.decodeError 0x42) } =
      { T0 with run := .halted (.decodeError 0x42) } := by decide

/-- The draws of R1r. -/
def drawsR1 : Draws :=
  { a := 0xAAAA, x := 0xBBBB, y := 0xCCCC, sl := 0x5A, c := true, z := true, v := true, n := true }

/-- R1r. -/
theorem test_R1r_construction :
    nextIs (construct { Config.default with draws := drawsR1 } { Bus.empty with wram := [(0xFFFD, 0x80)] })
      { State.reset with
        p := Flags.ofByte 0xF7, a := 0xAAAA, x := 0xBBBB, y := 0xCCCC, sp := 0x015A, pc := 0x8000
        cfg := { Config.default with draws := drawsR1 }, bus := { Bus.empty with wram := [(0xFFFD, 0x80)] } } = true := by
  decide

/-- R2r, R3r: the specified fields after a later reset, from Stopped. -/
theorem test_R3r_reset_from_stopped :
    (match hostReset ({ T0 with a := 0x1111, sp := 0x1FF0, d := 0x2100, db := 0x7E, pb := 0x80, run := .stopped }.holding
        [(0x00FFFD, 0x80)]) with
      | .next t => t.e && t.p.m && t.p.x && t.p.i && !t.p.d && t.d == 0 && t.db == 0 && t.pb == 0 && t.pc == 0x8000 &&
          decide (t.run = .running)
      | .fault _ => false
      | .refused _ => false) = true := rfl

/-- `State.reset` is what construction with the default parameters and empty storage leaves. -/
theorem test_reset_is_construction : construct Config.default Bus.empty = .next State.reset := rfl

/-- `State.withFetchWord`: the first step after reset runs the word placed (`NOP`; the table gives it 8 bits). -/
theorem test_withFetchWord_nop : becomes (State.reset.withFetchWord 8 0xEA) (fun s => { s with pc := 0x0001 }) = true := by
  decide

/-- `20_memory.md` R53, D4: a register window under `refuse`. -/
theorem test_register_window_refused :
    refusedWith (step ({ T0 with cfg := { Config.default with regionMap :=
        { bankLo := 0, bankHi := 0x3F, offLo := 0x2100, offHi := 0x43FF, kind := .registerWindow, base := 0, stride := 0,
          bankOrigin := 0 } :: [Region.flat] } }.running [0xAD, 0x00, 0x21])) (.registerWindow 0x002100) = true := by decide

/-- `42_arithmetic_logic.md` R183: decimal mode under `DECIMAL_ARITH = refuse`. -/
theorem test_decimal_refused :
    refusedWith (step ({ T0 with p := Flags.ofByte 0x08, cfg := { Config.default with decimalArith := .refuse } }.running
      [0x69, 0x01, 0x00])) .decimalMode = true := by decide

/-- `60_exceptions.md` R329: what the trace hook is called with. -/
theorem test_trace :
    traceOf ({ T0 with pb := 0x12, cfg := { Config.default with traceHook := true } }.running [0xEA]) =
      some { addr := 0x128000, opcode := 0xEA, mnemonic := "NOP" } := by decide


/-! ## Witnesses: states and operands that meet the hypotheses of the statements, one name for each statement that has any -/

/-- Every address of T0 names RAM. -/
theorem T0_ram : AllRam T0 := allRam_flat rfl

/-- T0 in Emulation mode, its stack at the bottom of page 1, where a push wraps. -/
def TE : State := { T0 with e := true, sp := 0x0100 }

theorem TE_ram : AllRam TE := allRam_flat rfl

/-- T0 with its stack at the bottom of bank 0, where a push wraps to the top. -/
def TW : State := { T0 with sp := 0x0000 }

theorem TW_ram : AllRam TW := allRam_flat rfl

/-- The first slots of a flat stack are RAM and differ where their addresses do. -/
theorem room_of_flat {s : State} {n : Nat} (h : s.cfg.regionMap = [Region.flat])
    (hd : ∀ j, j < n → ∀ k, k < n → j ≠ k → bank0 (pushSlot s j) ≠ bank0 (pushSlot s k)) : stackRoom s n :=
  ⟨fun _ _ => allRam_flat h _, fun j k hj hk hjk => apart_flat h (hd j hj k hk hjk)⟩

theorem witness_DecodeAfterEncodeIsIdentity :
    WellFormed { m8 := false, x8 := true, wdmSignature := false } (.ldaImmM (.word 0xFFFF)) = true ∧
    WellFormed { m8 := true, x8 := true, wdmSignature := false } (.ldxImmX (.byte 0xFF)) = true ∧
    WellFormed { m8 := true, x8 := true, wdmSignature := true } (.wdm (some 0x00)) = true ∧
    WellFormed { m8 := true, x8 := true, wdmSignature := false } (.wdm none) = true := by decide

theorem witness_EncodeAfterDecodeIsIdentity :
    decode { m8 := false, x8 := false, wdmSignature := false } [0xAD, 0x00, 0x20, 0xFF] = .ok (.ldaAbs 0x2000, [0xFF]) :=
  rfl

theorem witness_InstructionLengthFollowsMode :
    WellFormed { m8 := true, x8 := false, wdmSignature := false } (.adcImmM (.byte 0x01)) = true ∧
    WellFormed { m8 := true, x8 := false, wdmSignature := false } (.cpxImmX (.word 0x0100)) = true := by decide

/-- Vector A23: the operand bytes wrap inside the bank. -/
theorem witness_StepRunsDecodedInstruction :
    ∃ s : State, s.run = .running ∧ s.pb = 0x01 ∧ s.pc = 0xFFFF ∧
      WellFormed s.decodeContext (.ldaImmM (.word 0x1C1B)) = true ∧
      ∀ (k : Nat) (h : k < (encode (.ldaImmM (.word 0x1C1B))).length),
        peek s (mkAddr s.pb (s.pc + BitVec.ofNat 16 k)) = some ((encode (.ldaImmM (.word 0x1C1B)))[k]) :=
  ⟨{ T0 with pb := 0x01, pc := 0xFFFF }.running [0xA9, 0x1B, 0x1C], by decide, by decide, by decide, by decide, by decide⟩

theorem witness_StepOutsideRunningChangesNothing :
    { T0 with run := .waiting }.run ≠ .running ∧ { T0 with run := .stopped }.run ≠ .running ∧
    { T0 with run := .halted (.decodeError 0x42) }.run ≠ .running := by decide

theorem witness_ConstructionLeavesResetValues :
    storedWord { State.reset with cfg := Config.default, bus := { Bus.empty with wram := [(0xFFFD, 0x80)] } }
      Config.default.vectors.reset = some 0x8000 := by decide

/-- A stopped machine over a stored vector, and a halted one whose vector is unmapped. -/
theorem witness_LaterResetSetsSpecifiedFields :
    (storedWord { T0 with run := .stopped } T0.cfg.vectors.reset = some 0x0000 ∧
      ∀ reason, { T0 with run := .stopped }.run ≠ .halted reason) ∧
    ({ T0 with run := .halted (.decodeError 0x42), cfg := { Config.default with regionMap := [] } }.run =
      .halted (.decodeError 0x42)) :=
  ⟨⟨by decide, fun _ h => nomatch h⟩, rfl⟩

/-- At the last address, whose successor is the first; and, for the one-byte write, at the last RAM byte before ROM. -/
theorem witness_StoredWordReadsBackLittleEndian :
    (T0.bus.wf = true ∧ isRam T0 0xFFFFFF = true ∧ isRam T0 (0xFFFFFF + 1) = true ∧
      apart T0 0xFFFFFF (0xFFFFFF + 1) = true ∧ apart T0 0x000001 0xFFFFFF = true) ∧
    (E0.bus.wf = true ∧ isRam E0 0x007FFF = true ∧ isRam E0 (0x007FFF + 1) = false ∧ apart E0 0x007FFE 0x007FFF = true) := by
  decide

theorem witness_UnmappedAccessAndRomWriteAreFatal :
    locate E0.cfg 0x500000 = .unmapped ∧ locate E0.cfg 0x50FFFF = .unmapped ∧ locate E0.cfg 0x008000 = .rom 0 ∧
    E0.run = .running ∧ locate { E0 with pb := 0x50 }.cfg (mkAddr 0x50 E0.pc) = .unmapped := by decide

/-- The first byte of the image and, with a file header, the last but one. -/
theorem witness_RomAddressReadsImageByte :
    E0.cfg.regionMap.find? (fun r => regionCovers E0.cfg.mapFamily r (bankOf 0x008000).toNat (offsetOf 0x008000).toNat) =
      some { bankLo := 0x00, bankHi := 0x4F, offLo := 0x8000, offHi := 0xFFFF, kind := .rom, base := 0, stride := 0,
             bankOrigin := 0 } ∧
    (E0.cfg.mapFamily = .lo ∧
      0 = ((bankOf 0x008000).toNat - 0) * 0x8000 + ((offsetOf 0x008000).toNat - 0x8000) + E0.cfg.headerOffset) ∧
    { E0.cfg with mapFamily := .fastHi, headerOffset := 512 }.regionMap.find?
        (fun r => regionCovers .fastHi r (bankOf 0x3EFFFF).toNat (offsetOf 0x3EFFFF).toNat) =
      some { bankLo := 0x00, bankHi := 0x4F, offLo := 0x8000, offHi := 0xFFFF, kind := .rom, base := 0, stride := 0,
             bankOrigin := 0 } ∧
    0x3F01FF = ((bankOf 0x3EFFFF).toNat - 0) * 0x10000 + (offsetOf 0x3EFFFF).toNat + 512 ∧
    ¬ 0x3F01FF < E0.cfg.imageSize := by decide

/-- A register window at `00` to `3F`, `2100` to `43FF`, over the flat storage. -/
def windowed (policy : RegWindowPolicy) : State :=
  { T0 with cfg := { Config.default with
    regWindowPolicy := policy
    regionMap := { bankLo := 0x00, bankHi := 0x3F, offLo := 0x2100, offHi := 0x43FF, kind := .registerWindow, base := 0,
                   stride := 0, bankOrigin := 0 } :: [Region.flat] } }

/-- The two policies, and a device over the whole space. -/
theorem witness_RegisterWindowFollowsPolicy :
    (locate (windowed .refuse).cfg 0x002100 = .registerWindow ∧ (windowed .refuse).cfg.regWindowPolicy = .refuse) ∧
    (locate (windowed .stub).cfg 0x3F43FF = .registerWindow ∧ (windowed .stub).cfg.regWindowPolicy = .stub) ∧
    (locate { Config.default with regionMap := [{ Region.flat with kind := .device }] } 0x000000 = .device ∧
      locate { Config.default with regionMap := [{ Region.flat with kind := .device }] } 0xFFFFFF = .device) := by decide

/-- Pointers at the wrap of the direct page (`FFF0 + 10 = 0000`) and of the stack. -/
theorem witness_EffectiveAddressesThroughPointer :
    ((0x000000 : Addr).toNat = { T0 with d := 0xFFF0 }.dpNat (0x10 : Byte).toNat 0 ∧
      storedWord { T0 with d := 0xFFF0 } 0x000000 = some 0x0000 ∧
      storedLong { T0 with d := 0xFFF0 } 0x000000 = some 0x000000) ∧
    ((0x000103 : Addr).toNat = { TE with d := 0x0034, x := 0x0005 }.dpNat (0xFE : Byte).toNat
        { TE with d := 0x0034, x := 0x0005 }.xNat ∧
      storedWord { TE with d := 0x0034, x := 0x0005 } 0x000103 = some 0x0000) ∧
    ((0x00000E : Addr).toNat = ({ T0 with sp := 0xFFFF }.sp.toNat + (0x0F : Byte).toNat) % 65536 ∧
      storedWord { T0 with sp := 0xFFFF } 0x00000E = some 0x0000) := by decide

theorem witness_LoadReadsOperand :
    (Imm.word 0x1234).width = .w16 ∧ effAddr (.abx 0xFFFF) { T0 with db := 0xFF, x := 0x0001 } =
      .ok (0x000000, { T0 with db := 0xFF, x := 0x0001 }) ∧
    peek { T0 with db := 0xFF, x := 0x0001 } 0x000000 = some 0x00 ∧
    storedWord { T0 with db := 0xFF, x := 0x0001 } 0x000000 = some 0x0000 :=
  ⟨rfl, rfl, rfl, rfl⟩

theorem witness_LoadsWriteRegisterAndFlags :
    ((Instr.ldaDly 0x20).operand = .data (.mem (.dly 0x20)) ∧ (Instr.ldaDly 0x20).mnemonic = .lda ∧
      ∃ v, load (.mem (.dly 0x20)) T0.wA T0 = .ok (v, T0)) ∧
    ((Instr.ldxAby 0xFFFF).operand = .data (.mem (.aby 0xFFFF)) ∧ (Instr.ldxAby 0xFFFF).mnemonic = .ldx ∧
      ∃ v, load (.mem (.aby 0xFFFF)) T0.wX T0 = .ok (v, T0)) ∧
    ((Instr.ldyImmX (.byte 0x80)).operand = .data (.immX (.byte 0x80)) ∧ (Instr.ldyImmX (.byte 0x80)).mnemonic = .ldy ∧
      ∃ v, load (.immX (.byte 0x80)) TE.wX TE = .ok (v, TE)) :=
  ⟨⟨rfl, rfl, T0_ram.load _ _⟩, ⟨rfl, rfl, T0_ram.load _ _⟩, rfl, rfl, TE_ram.load _ _⟩

/-- At `00:FFFF`, whose second byte is at `01:0000`. -/
theorem witness_StoresWriteMemory :
    ((Instr.staAbs 0xFFFF).operand = .data (.mem (.abs 0xFFFF)) ∧ (Instr.staAbs 0xFFFF).mnemonic = .sta ∧
      (Instr.stxAbs 0xFFFF).operand = .data (.mem (.abs 0xFFFF)) ∧ (Instr.stxAbs 0xFFFF).mnemonic = .stx ∧
      (Instr.styAbs 0xFFFF).operand = .data (.mem (.abs 0xFFFF)) ∧ (Instr.styAbs 0xFFFF).mnemonic = .sty ∧
      (Instr.stzAbs 0xFFFF).operand = .data (.mem (.abs 0xFFFF)) ∧ (Instr.stzAbs 0xFFFF).mnemonic = .stz) ∧
    effAddr (.abs 0xFFFF) T0 = .ok (0x00FFFF, T0) ∧ ∀ w v, ∃ t, writeW 0x00FFFF w v T0 = .ok t := by
  refine ⟨by decide, rfl, fun w v => ?_⟩
  obtain ⟨t, h, -⟩ := T0_ram.writeW 0x00FFFF w v
  exact ⟨t, h⟩

theorem witness_AdderCarryAndSignedOverflow :
    ((0xFFFF : Word).toNat < 2 ^ bitsOf .w16 ∧ (0x8000 : Word).toNat < 2 ^ bitsOf .w16) ∧
    ((0xFF : Word).toNat < 2 ^ bitsOf .w8 ∧ (0x00 : Word).toNat < 2 ^ bitsOf .w8) := by decide

theorem witness_AdcAddsWithCarry :
    (Instr.adcSiy 0xFF).mnemonic = .adc ∧ (Instr.adcSiy 0xFF).operand = .data (.mem (.siy 0xFF)) ∧
    ({ T0 with p := Flags.ofByte 0x08 }.cfg.decimalArith = .binary ∧
      ∃ m, load (.mem (.siy 0xFF)) { T0 with p := Flags.ofByte 0x08 }.wA { T0 with p := Flags.ofByte 0x08 } =
        .ok (m, { T0 with p := Flags.ofByte 0x08 })) ∧
    ({ Config.default with decimalArith := .refuse }.decimalArith = .refuse ∧ (Flags.ofByte 0x08).d = true) :=
  ⟨rfl, rfl, ⟨rfl, (allRam_flat rfl).load _ _⟩, rfl, rfl⟩

theorem witness_SbcSubtractsWithBorrow :
    (Instr.sbcAlx 0xFFFFFF).mnemonic = .sbc ∧ (Instr.sbcAlx 0xFFFFFF).operand = .data (.mem (.alx 0xFFFFFF)) ∧
    (T0.p.d = false ∧ ∃ m, load (.mem (.alx 0xFFFFFF)) T0.wA T0 = .ok (m, T0)) ∧
    ({ Config.default with decimalArith := .refuse }.decimalArith = .refuse ∧ (Flags.ofByte 0x08).d = true) :=
  ⟨rfl, rfl, ⟨rfl, T0_ram.load _ _⟩, rfl, rfl⟩

theorem witness_ComparesOrderUnsigned :
    ((Instr.cmpDil 0x10).operand = .data (.mem (.dil 0x10)) ∧ (Instr.cmpDil 0x10).mnemonic = .cmp ∧
      ∃ m, load (.mem (.dil 0x10)) T0.wA T0 = .ok (m, T0)) ∧
    ((Instr.cpxImmX (.byte 0x10)).operand = .data (.immX (.byte 0x10)) ∧ (Instr.cpxImmX (.byte 0x10)).mnemonic = .cpx ∧
      ∃ m, load (.immX (.byte 0x10)) TE.wX TE = .ok (m, TE)) ∧
    ((Instr.cpyAbs 0xFFFF).operand = .data (.mem (.abs 0xFFFF)) ∧ (Instr.cpyAbs 0xFFFF).mnemonic = .cpy ∧
      ∃ m, load (.mem (.abs 0xFFFF)) T0.wX T0 = .ok (m, T0)) :=
  ⟨⟨rfl, rfl, T0_ram.load _ _⟩, ⟨rfl, rfl, TE_ram.load _ _⟩, rfl, rfl, T0_ram.load _ _⟩

theorem witness_LogicCombinesAccumulator :
    ((Instr.andDxi 0xFF).operand = .data (.mem (.dxi 0xFF)) ∧ (Instr.andDxi 0xFF).mnemonic = .and ∧
      ∃ m, load (.mem (.dxi 0xFF)) T0.wA T0 = .ok (m, T0)) ∧
    ((Instr.oraSr 0xFF).operand = .data (.mem (.sr 0xFF)) ∧ (Instr.oraSr 0xFF).mnemonic = .ora ∧
      ∃ m, load (.mem (.sr 0xFF)) TE.wA TE = .ok (m, TE)) ∧
    ((Instr.eorImmM (.word 0xFFFF)).operand = .data (.immM (.word 0xFFFF)) ∧
      (Instr.eorImmM (.word 0xFFFF)).mnemonic = .eor ∧ ∃ m, load (.immM (.word 0xFFFF)) T0.wA T0 = .ok (m, T0)) :=
  ⟨⟨rfl, rfl, T0_ram.load _ _⟩, ⟨rfl, rfl, TE_ram.load _ _⟩, rfl, rfl, T0_ram.load _ _⟩

theorem witness_BitTestsOperand :
    ((Instr.bitImmM (.byte 0xC0)).mnemonic = .bit ∧ (Instr.bitImmM (.byte 0xC0)).operand = .data (.immM (.byte 0xC0)) ∧
      ∃ m, load (.immM (.byte 0xC0)) TE.wA TE = .ok (m, TE)) ∧
    ((Instr.bitAbx 0xFFFF).mnemonic = .bit ∧ (Instr.bitAbx 0xFFFF).operand = .data (.mem (.abx 0xFFFF)) ∧
      ∃ m, load (.mem (.abx 0xFFFF)) T0.wA T0 = .ok (m, T0)) :=
  ⟨⟨rfl, rfl, TE_ram.load _ _⟩, rfl, rfl, T0_ram.load _ _⟩

theorem witness_ModifiersComputeModuloWidth :
    (0xFFFF : Word).toNat < 2 ^ bitsOf .w16 ∧ (0x00FF : Word).toNat < 2 ^ bitsOf .w8 := by decide

/-- Both forms; the memory form at the last address of a bank, at 16 and at 8 bits. -/
theorem witness_ModifyInstructionsWriteBack :
    ((Instr.rorAcc).mnemonic = .ror ∧ (Instr.rorAcc).operand = .acc) ∧
    ((Instr.incAbs 0xFFFF).mnemonic = .inc ∧ (Instr.incAbs 0xFFFF).operand = .data (.mem (.abs 0xFFFF))) ∧
    (∃ ea v x, effAddr (.abs 0xFFFF) T0 = .ok (ea, T0) ∧ readW ea T0.wA T0 = .ok (v, T0) ∧
      writeW ea T0.wA (incW T0.wA T0.p.c v).1 T0 = .ok x) ∧
    (∃ ea v x, effAddr (.abs 0xFFFF) TE = .ok (ea, TE) ∧ readW ea TE.wA TE = .ok (v, TE) ∧
      writeW ea TE.wA (incW TE.wA TE.p.c v).1 TE = .ok x) := by
  obtain ⟨ea, h1⟩ := T0_ram.effAddr (.abs 0xFFFF)
  obtain ⟨v, h2⟩ := T0_ram.readW ea T0.wA
  obtain ⟨x, h3, -⟩ := T0_ram.writeW ea T0.wA (incW T0.wA T0.p.c v).1
  obtain ⟨eb, h4⟩ := TE_ram.effAddr (.abs 0xFFFF)
  obtain ⟨u, h5⟩ := TE_ram.readW eb TE.wA
  obtain ⟨y, h6, -⟩ := TE_ram.writeW eb TE.wA (incW TE.wA TE.p.c u).1
  exact ⟨⟨rfl, rfl⟩, ⟨rfl, rfl⟩, ⟨ea, v, x, h1, h2, h3⟩, eb, u, y, h4, h5, h6⟩

theorem witness_TestAndSetOrReset :
    ((Instr.tsbDp 0xFF).mnemonic = .tsb ∧ (Instr.tsbDp 0xFF).operand = .data (.mem (.dp 0xFF))) ∧
    ((Instr.trbDp 0xFF).mnemonic = .trb ∧ (Instr.trbDp 0xFF).operand = .data (.mem (.dp 0xFF))) ∧
    ∃ ea v x y, effAddr (.dp 0xFF) T0 = .ok (ea, T0) ∧ readW ea T0.wA T0 = .ok (v, T0) ∧
      writeW ea T0.wA (v ||| T0.aV) T0 = .ok x ∧ writeW ea T0.wA (v &&& ~~~T0.aV) T0 = .ok y := by
  obtain ⟨ea, h1⟩ := T0_ram.effAddr (.dp 0xFF)
  obtain ⟨v, h2⟩ := T0_ram.readW ea T0.wA
  obtain ⟨x, h3, -⟩ := T0_ram.writeW ea T0.wA (v ||| T0.aV)
  obtain ⟨y, h4, -⟩ := T0_ram.writeW ea T0.wA (v &&& ~~~T0.aV)
  exact ⟨⟨rfl, rfl⟩, ⟨rfl, rfl⟩, ea, v, x, y, h1, h2, h3, h4⟩

/-- The pointers at `00:FFFF` take their second byte from `01:0000`; the indexed one wraps inside the bank. -/
theorem witness_JumpsGoToTarget :
    storedWord T0 (mkAddr 0x00 0xFFFF) = some 0x0000 ∧
    storedWord { T0 with pb := 0x80, x := 0x0001 } (mkAddr 0x80 (0xFFFF + { T0 with pb := 0x80, x := 0x0001 }.xV)) =
      some 0x0000 ∧
    storedLong T0 (mkAddr 0x00 0xFFFF) = some 0x000000 := by decide

theorem witness_CallsPushReturnAddress :
    (∃ t, push16 (T0.pc - 1) T0 = .ok t ∧ ∃ p, storedWord t (mkAddr T0.pb (0xFFFF + T0.xV)) = some p) ∧
    (∃ t u, push8 TW.pb TW = .ok t ∧ push16 (TW.pc - 1) t = .ok u) := by
  obtain ⟨t, h1, ht⟩ := T0_ram.push16 (T0.pc - 1)
  obtain ⟨lo, hlo⟩ := peek_of_isRam (ht (mkAddr T0.pb (0xFFFF + T0.xV)))
  obtain ⟨hi, hhi⟩ := peek_of_isRam (ht (mkAddr T0.pb (0xFFFF + T0.xV) + 1))
  obtain ⟨x, h2, hx⟩ := TW_ram.push8 TW.pb
  obtain ⟨y, h3, -⟩ := hx.push16 (TW.pc - 1)
  exact ⟨⟨t, h1, mkWord hi lo, by simp only [storedWord, hlo, hhi]⟩, x, y, h2, h3⟩

/-- The stack wraps during the pulls, in both modes. -/
theorem witness_ReturnsGoPastPulledAddress :
    (peek { T0 with sp := 0xFFFE } (mkAddr 0x00 (pullSlot { T0 with sp := 0xFFFE } 1)) = some 0x00 ∧
      peek { T0 with sp := 0xFFFE } (mkAddr 0x00 (pullSlot { T0 with sp := 0xFFFE } 2)) = some 0x00 ∧
      peek { T0 with sp := 0xFFFE } (mkAddr 0x00 (pullSlot { T0 with sp := 0xFFFE } 3)) = some 0x00) ∧
    (pullSlot { TE with sp := 0x01FF } 1 = 0x0100 ∧
      peek { TE with sp := 0x01FF } (mkAddr 0x00 (pullSlot { TE with sp := 0x01FF } 1)) = some 0x00 ∧
      peek { TE with sp := 0x01FF } (mkAddr 0x00 (pullSlot { TE with sp := 0x01FF } 2)) = some 0x00) := by decide

theorem room_TE (n : Nat) (h : n ≤ 4) : stackRoom TE n :=
  room_of_flat rfl (fun j hj k hk =>
    (by decide : ∀ j, j < 4 → ∀ k, k < 4 → j ≠ k → bank0 (pushSlot TE j) ≠ bank0 (pushSlot TE k)) j (by omega) k (by omega))

theorem room_TW (n : Nat) (h : n ≤ 4) : stackRoom TW n :=
  room_of_flat rfl (fun j hj k hk =>
    (by decide : ∀ j, j < 4 → ∀ k, k < 4 → j ≠ k → bank0 (pushSlot TW j) ≠ bank0 (pushSlot TW k)) j (by omega) k (by omega))

/-- In each mode, with the frame across the wrap of the stack; the subroutine leaves `A`, the flags and `PC` changed. -/
theorem witness_CallThenReturnComesBack :
    ∀ s, s = TE ∨ s = TW →
      s.bus.wf = true ∧ s.stackPageOk = true ∧ stackRoom s 2 ∧ stackRoom s 3 ∧
      ∃ t r, exec (.jsrAxi 0xFFFF) s = .next t ∧ r.a ≠ t.a ∧ r.p ≠ t.p ∧ r.pc ≠ t.pc ∧ r.sp = t.sp ∧ r.e = t.e ∧
        ∀ k, k < 2 → peek r (bank0 (pushSlot s k)) = peek t (bank0 (pushSlot s k)) := by
  rintro s (rfl | rfl)
  · exact ⟨rfl, rfl, room_TE 2 (by decide), room_TE 3 (by decide), _, { TE with
      a := 0x1234, p := Flags.ofByte 0x01, pc := 0x1234, sp := 0x01FE,
      bus := { TE.bus with wram := [(0x0100, 0x7F), (0x01FF, 0xFF)] } }, rfl, by decide⟩
  · exact ⟨rfl, rfl, room_TW 2 (by decide), room_TW 3 (by decide), _, { TW with
      a := 0x1234, p := Flags.ofByte 0x01, pc := 0x1234, sp := 0xFFFE,
      bus := { TW.bus with wram := [(0x0000, 0x7F), (0xFFFF, 0xFF)] } }, rfl, by decide⟩

theorem witness_PushThenPullRoundTrip :
    (∃ t, writeByte (mkAddr 0x00 TE.sp) 0xFF TE = .ok t) ∧
    (∃ b t, readByte (mkAddr 0x00 (TE.writeS (TE.sp + 1)).sp) (TE.writeS (TE.sp + 1)) = .ok (b, t)) ∧
    (∃ t u, push8 (highByte 0x1234) TE = .ok t ∧ push8 (lowByte 0x1234) t = .ok u) ∧
    (∃ lo hi t u, pull8 TE = .ok (lo, t) ∧ pull8 t = .ok (hi, u)) ∧
    TW.e = false ∧
    (TE.bus.wf = true ∧ TE.stackPageOk = true ∧ stackRoom TE 1 ∧ stackRoom TE 2) ∧
    (TW.bus.wf = true ∧ TW.stackPageOk = true ∧ stackRoom TW 1 ∧ stackRoom TW 2) := by
  obtain ⟨t, h1, -⟩ := TE_ram.writeByte (mkAddr 0x00 TE.sp) 0xFF
  have hs : AllRam (TE.writeS (TE.sp + 1)) := allRam_flat rfl
  obtain ⟨b, h2⟩ := hs.readByte (mkAddr 0x00 (TE.writeS (TE.sp + 1)).sp)
  obtain ⟨x, h3, hx⟩ := TE_ram.push8 (highByte 0x1234)
  obtain ⟨y, h4, -⟩ := hx.push8 (lowByte 0x1234)
  obtain ⟨lo, v, h5, hv⟩ := TE_ram.pull8
  obtain ⟨hi, w, h6, -⟩ := hv.pull8
  exact ⟨⟨t, h1⟩, ⟨b, _, h2⟩, ⟨x, y, h3, h4⟩, ⟨lo, hi, v, w, h5, h6⟩, rfl,
    ⟨rfl, rfl, room_TE 1 (by decide), room_TE 2 (by decide)⟩, rfl, rfl, room_TW 1 (by decide), room_TW 2 (by decide)⟩

/-- Each width, at the wrap of the stack in each mode. -/
theorem witness_PushInstructionsPushRegister :
    ((TE.e || TE.p.m) = true ∧ (TE.e || TE.p.x) = true ∧ ∀ b, ∃ t, push8 b TE = .ok t) ∧
    ((TW.e || TW.p.m) = false ∧ (TW.e || TW.p.x) = false ∧ ∀ v, ∃ t, push16 v TW = .ok t) := by
  refine ⟨⟨rfl, rfl, fun b => ?_⟩, rfl, rfl, fun v => ?_⟩
  · obtain ⟨t, h, -⟩ := TE_ram.push8 b
    exact ⟨t, h⟩
  · obtain ⟨t, h, -⟩ := TW_ram.push16 v
    exact ⟨t, h⟩

/-- Each width, at the wrap of the stack in each mode. -/
theorem witness_PullInstructionsWriteRegister :
    ((TE.e || TE.p.m) = true ∧ (TE.e || TE.p.x) = true ∧ ∃ b t, pull8 { TE with sp := 0x01FF } = .ok (b, t)) ∧
    ((TW.e || TW.p.m) = false ∧ (TW.e || TW.p.x) = false ∧ ∃ v t, pull16 { TW with sp := 0xFFFE } = .ok (v, t)) := by
  have he : AllRam { TE with sp := 0x01FF } := allRam_flat rfl
  have hw : AllRam { TW with sp := 0xFFFE } := allRam_flat rfl
  obtain ⟨b, t, h1, -⟩ := he.pull8
  obtain ⟨v, u, h2, -⟩ := hw.pull16
  exact ⟨⟨rfl, rfl, b, t, h1⟩, rfl, rfl, v, u, h2⟩

/-- The direct-page location at the top of bank 0, and the stack at its wrap. -/
theorem witness_PushEffectiveAddress :
    ((0x00FFFF : Addr).toNat = { TW with d := 0xFFFF }.dpNat (0x00 : Byte).toNat 0 ∧
      storedWord { TW with d := 0xFFFF } 0x00FFFF = some 0x0000) ∧
    (∃ t, push16 0x0000 { TW with d := 0xFFFF } = .ok t) ∧
    (∃ t, push16 0x1234 TE = .ok t) ∧ (∃ t, push16 (TE.pc + 0xFFFD) TE = .ok t) := by
  have hw : AllRam { TW with d := 0xFFFF } := allRam_flat rfl
  obtain ⟨t, h1, -⟩ := hw.push16 0x0000
  obtain ⟨u, h2, -⟩ := TE_ram.push16 0x1234
  obtain ⟨x, h3, -⟩ := TE_ram.push16 (TE.pc + 0xFFFD)
  exact ⟨by decide, ⟨t, h1⟩, ⟨u, h2⟩, x, h3⟩

theorem witness_BlockMoveMovesOneByte :
    ∀ s, s = { T0 with x := 0xFFFF } ∨ s = { TE with a := 0x0001 } →
      ∃ b u, readByte (mkAddr 0x7E s.xV) s = .ok (b, s) ∧ writeByte (mkAddr 0x7F s.yV) b s = .ok u := by
  intro s hs
  have h : AllRam s := by rcases hs with rfl | rfl <;> exact allRam_flat rfl
  obtain ⟨b, h1⟩ := h.readByte (mkAddr 0x7E s.xV)
  obtain ⟨u, h2, -⟩ := h.writeByte (mkAddr 0x7F s.yV) b
  exact ⟨b, u, h1, h2⟩

/-- In each mode, with the frame across the wrap of the stack. -/
theorem witness_InterruptEntrySavesAndVectors :
    (TE.bus.wf = true ∧ stackRoom TE (if TE.e then 3 else 4) ∧
      storedWord TE (vectorOf TE.cfg.vectors .brk TE.e) = some 0x0000 ∧
      ∀ k, k < (if TE.e then 3 else 4) →
        apart TE (vectorOf TE.cfg.vectors .brk TE.e) (bank0 (pushSlot TE k)) = true ∧
        apart TE (vectorOf TE.cfg.vectors .brk TE.e + 1) (bank0 (pushSlot TE k)) = true) ∧
    (TW.bus.wf = true ∧ stackRoom TW (if TW.e then 3 else 4) ∧
      storedWord TW (vectorOf TW.cfg.vectors .nmi TW.e) = some 0x0000 ∧
      ∀ k, k < (if TW.e then 3 else 4) →
        apart TW (vectorOf TW.cfg.vectors .nmi TW.e) (bank0 (pushSlot TW k)) = true ∧
        apart TW (vectorOf TW.cfg.vectors .nmi TW.e + 1) (bank0 (pushSlot TW k)) = true) :=
  ⟨⟨rfl, room_TE 3 (by decide), rfl, by decide⟩, rfl, room_TW 4 (by decide), rfl, by decide⟩

theorem witness_BrkAndCopTakeInterruptEntry :
    (∃ t, interruptEntry .brk TE.pc TE = .ok t) ∧ (∃ t, interruptEntry .cop TW.pc TW = .ok t) :=
  ⟨TE_ram.interruptEntry _ _, TW_ram.interruptEntry _ _⟩

/-- Vectors I7 and I6, the first with the pulls across the wrap of page 1. -/
theorem witness_RtiPullsStatusCounterBank :
    ({ TE with sp := 0x01FE }.e = true ∧
      peek { TE with sp := 0x01FE } (mkAddr 0x00 (pullSlot { TE with sp := 0x01FE } 1)) = some 0x00 ∧
      peek { TE with sp := 0x01FE } (mkAddr 0x00 (pullSlot { TE with sp := 0x01FE } 2)) = some 0x00 ∧
      peek { TE with sp := 0x01FE } (mkAddr 0x00 (pullSlot { TE with sp := 0x01FE } 3)) = some 0x00) ∧
    ({ T0 with sp := 0x1FFB }.e = false ∧
      peek { T0 with sp := 0x1FFB } (mkAddr 0x00 (pullSlot { T0 with sp := 0x1FFB } 1)) = some 0x00 ∧
      peek { T0 with sp := 0x1FFB } (mkAddr 0x00 (pullSlot { T0 with sp := 0x1FFB } 2)) = some 0x00 ∧
      peek { T0 with sp := 0x1FFB } (mkAddr 0x00 (pullSlot { T0 with sp := 0x1FFB } 3)) = some 0x00 ∧
      peek { T0 with sp := 0x1FFB } (mkAddr 0x00 (pullSlot { T0 with sp := 0x1FFB } 4)) = some 0x00) := by decide

/-- In each mode, with the frame across the wrap of the stack; the handler leaves `A`, the flags, `PB` and `PC` changed. -/
theorem witness_EntryThenReturnRestores :
    (TE.bus.wf = true ∧ TE.stackPageOk = true ∧ stackRoom TE (if TE.e then 3 else 4) ∧ TE.e = true ∧
      (∃ t, interruptEntry .brk 0x9002 TE = .ok t) ∧ (∃ t, interruptEntry .cop 0x9002 TE = .ok t) ∧
      ∃ t, interruptEntry .irq 0x9002 TE = .ok t) ∧
    (TW.bus.wf = true ∧ TW.stackPageOk = true ∧ stackRoom TW (if TW.e then 3 else 4) ∧ TW.e = false) ∧
    ∀ s, s = TE ∨ s = TW →
      ∃ t r, interruptEntry .brk 0x9002 s = .ok t ∧ r.a ≠ t.a ∧ r.p ≠ t.p ∧ r.pb ≠ t.pb ∧ r.pc ≠ t.pc ∧ r.sp = t.sp ∧
        r.e = t.e ∧ ∀ k, k < (if s.e then 3 else 4) → peek r (bank0 (pushSlot s k)) = peek t (bank0 (pushSlot s k)) := by
  refine ⟨⟨rfl, rfl, room_TE 3 (by decide), rfl, TE_ram.interruptEntry _ _, TE_ram.interruptEntry _ _,
    TE_ram.interruptEntry _ _⟩, ⟨rfl, rfl, room_TW 4 (by decide), rfl⟩, ?_⟩
  rintro s (rfl | rfl)
  · exact ⟨_, { TE with
      a := 0x1234, p := Flags.ofByte 0x01, pb := 0x12, pc := 0x1234, sp := 0x01FD,
      bus := { TE.bus with wram := [(0x0100, 0x90), (0x01FE, 0x10), (0x01FF, 0x02)] } }, rfl, by decide⟩
  · exact ⟨_, { TW with
      a := 0x1234, p := Flags.ofByte 0x01, pb := 0x12, pc := 0x1234, sp := 0xFFFC,
      bus := { TW.bus with wram := [(0xFFFE, 0x02), (0xFFFF, 0x90)] } }, rfl, by decide⟩

theorem X0_ram : AllRam X0 := allRam_flat rfl

theorem witness_HostInterruptFollowsMask :
    T0.cfg.interruptInputs = false ∧ X0.cfg.interruptInputs = true ∧ { X0 with run := .stopped }.run = .stopped ∧
    { X0 with run := .halted .malformedHeader }.run = .halted .malformedHeader ∧
    ({ X0 with run := .waiting }.run = .waiting ∧ { X0 with run := .waiting, p := Flags.ofByte 0x04 }.p.i = true) ∧
    (X0.run = .running ∧ X0.p.i = false ∧ (∃ t, interruptEntry .irq X0.pc X0 = .ok t) ∧
      ∃ t, interruptEntry .nmi X0.pc X0 = .ok t) ∧
    (XE.cfg.interruptInputs = true ∧ XE.run = .running ∧ XE.p.i = false ∧
      interruptEntry .nmi XE.pc XE = .error (.fault (.fatal (.writeToReadOnly 0x008001) XE.bus))) :=
  ⟨rfl, rfl, rfl, rfl, ⟨rfl, rfl⟩, ⟨rfl, rfl, X0_ram.interruptEntry _ _, X0_ram.interruptEntry _ _⟩, rfl, rfl, rfl, rfl⟩

/-- A next state that differs in `A`, one in `PB`, `PC` and `S`, one in `E`, one in `run`. -/
theorem witness_OnlyListedInstructionsWriteRegisters :
    (∃ t, exec .xba { T0 with a := 0x0100 } = .next t ∧ t.a ≠ 0x0100) ∧
    (∃ t, exec (.jmlAblPc 0x7E9000) T0 = .next t ∧ t.pb ≠ T0.pb ∧ t.pc ≠ T0.pc) ∧
    (∃ t, exec .pha T0 = .next t ∧ t.sp ≠ T0.sp) ∧ (∃ t, exec .xce TE = .next t ∧ t.e ≠ TE.e) ∧
    (∃ t, exec .stp T0 = .next t ∧ t.run ≠ T0.run) :=
  ⟨⟨_, rfl, by decide⟩, ⟨_, rfl, by decide, by decide⟩, ⟨_, rfl, by decide⟩, ⟨_, rfl, by decide⟩, _, rfl, by decide⟩

theorem witness_OnlyListedInstructionsWriteFlags :
    (∃ t, exec .sec T0 = .next t ∧ t.p.c ≠ T0.p.c) ∧
    (∃ t, exec (.sep 0xFF) T0 = .next t ∧ t.p.x ≠ T0.p.x ∧ t.p.m ≠ T0.p.m ∧ t.p.v ≠ T0.p.v ∧ t.p.n ≠ T0.p.n) ∧
    (∃ t, exec (.brk 0x00) T0 = .next t ∧ t.p.i ≠ T0.p.i) :=
  ⟨⟨_, rfl, by decide⟩, ⟨_, rfl, by decide, by decide, by decide, by decide⟩, _, rfl, by decide⟩

/-- A store of two bytes at `00:FFFF`, a push across the wrap, a call, and a block move. -/
theorem witness_OnlyStoredBytesChange :
    ((∃ t, exec (.staAbs 0xFFFF) { T0 with a := 0x1234 } = .next t) ∧
      storedWidth (.staAbs 0xFFFF) { T0 with a := 0x1234 } = some .w16 ∧
      effAddr (.abs 0xFFFF) { T0 with a := 0x1234 } = .ok (0x00FFFF, { T0 with a := 0x1234 }) ∧
      apart T0 0x00FFFE 0x00FFFF = true ∧ apart T0 0x00FFFE (0x00FFFF + 1) = true) ∧
    ((∃ t, exec .pha TW = .next t) ∧ storedWidth .pha TW = none ∧ pushedBytes .pha TW = 2 ∧
      apart TW 0x00FFFE (bank0 (pushSlot TW 0)) = true ∧ apart TW 0x00FFFE (bank0 (pushSlot TW 1)) = true) ∧
    ((∃ t, exec (.brk 0x00) TE = .next t) ∧ pushedBytes (.brk 0x00) TE = 3) ∧
    ((∃ t, exec (.mvn 0x7F 0x7E) T0 = .next t) ∧ (Instr.mvn 0x7F 0x7E).operand = .blk 0x7F 0x7E ∧
      apart T0 0x7F0001 (mkAddr 0x7F T0.yV) = true) :=
  ⟨⟨⟨_, rfl⟩, rfl, rfl, by decide, by decide⟩, ⟨⟨_, rfl⟩, rfl, rfl, by decide, by decide⟩, ⟨⟨_, rfl⟩, rfl⟩, ⟨_, rfl⟩, rfl,
    by decide⟩

theorem witness_HiddenHighBytesAreKept :
    (∃ t, exec .incAcc { TE with a := 0x12FF } = .next t ∧ t.a = 0x1200) ∧ (TE.e || TE.p.m) = true ∧
    (∃ t, exec .inx { TE with x := 0x12FF } = .next t ∧ t.x = 0x1200) ∧ (TE.e || TE.p.x) = true :=
  ⟨⟨_, rfl, by decide⟩, rfl, ⟨_, rfl, by decide⟩, rfl⟩

/-- The step of vector C22, a push across the wrap of page 1; a fatal step; an interrupt; a reset; a write of `S`. -/
theorem witness_StepKeepsInvariant :
    (∃ t, (TE.running [0x20, 0x00, 0x90]).inv = true ∧ step (TE.running [0x20, 0x00, 0x90]) = .next t ∧ t.sp = 0x01FE) ∧
    (∃ t, E0.inv = true ∧ hostStep { E0 with pb := 0x50 } = .next t ∧ t.run = .halted (.unmappedAddress 0x508000)) ∧
    (∃ t, { X0 with e := true, sp := 0x0100 }.inv = true ∧ interrupt .nmi { X0 with e := true, sp := 0x0100 } = .next t ∧
      t.sp = 0x01FD) ∧
    (∃ t, { T0 with sp := 0x1FFF, run := .stopped }.inv = true ∧
      hostReset { T0 with sp := 0x1FFF, run := .stopped } = .next t ∧ t.run = .running) ∧
    (TE.inv = true ∧ (hostWrite (.sp 0x1234) TE).sp = 0x0134 ∧ (poke TE 0x000000 0xFF).inv = true) :=
  ⟨⟨_, by decide, rfl, by decide⟩, ⟨_, by decide, rfl, by decide⟩, ⟨_, by decide, rfl, by decide⟩,
    ⟨_, by decide, rfl, by decide⟩, by decide⟩

theorem witness_OnlyListedFatalErrors :
    (∃ bus, exec (.ldaAbl 0x500000) E0 = .fault (.fatal (.unmappedAddress 0x500000) bus)) ∧
    (∃ bus, exec (.staAbs 0x9000) E0 = .fault (.fatal (.writeToReadOnly 0x009000) bus)) ∧
    (∃ bus, exec (.wdm none) T0 = .fault (.fatal (.decodeError 0x42) bus)) ∧
    exec (.ldaAbs 0x2100) (windowed .refuse) = .refused (.registerWindow 0x002100) ∧
    exec (.adcImmM (.word 0x0001))
      { T0 with p := Flags.ofByte 0x08, cfg := { Config.default with decimalArith := .refuse } } =
        .refused .decimalMode ∧
    (∃ t, step (T0.running [0xEA]) = .next t) ∧
    (∃ bus, step { E0 with pb := 0x50 } = .fault (.fatal (.unmappedAddress 0x508000) bus)) ∧
    (∃ bus, step (E0.running [0x8D, 0x00, 0x90]) = .fault (.fatal (.writeToReadOnly 0x009000) bus)) ∧
    (∃ bus, step (T0.running [0x42]) = .fault (.fatal (.decodeError 0x42) bus)) ∧
    step { windowed .refuse with pc := 0x2100 } = .refused (.registerWindow 0x002100) ∧
    step ({ T0 with p := Flags.ofByte 0x08, cfg := { Config.default with decimalArith := .refuse } }.running
      [0x69, 0x01, 0x00]) = .refused .decimalMode :=
  ⟨⟨_, rfl⟩, ⟨_, rfl⟩, ⟨_, rfl⟩, rfl, rfl, ⟨_, rfl⟩, ⟨_, rfl⟩, ⟨_, rfl⟩, ⟨_, rfl⟩, rfl, rfl⟩

/-- The step clause under the default, fatal, `WDM_BEHAVIOUR`, and in Waiting. -/
theorem witness_EveryInstructionCompletesOnRam :
    (AllRam T0 ∧ runnable (.adcImmM (.word 0x0001)) T0 = true ∧ runnable (.sbcDp 0xFF) T0 = true ∧
      runnable (.rolAcc) TE = true) ∧
    (AllRam { T0 with cfg := { Config.default with wdmBehaviour := .nop2 } } ∧
      runnable (.wdm (some 0x00)) { T0 with cfg := { Config.default with wdmBehaviour := .nop2 } } = true) ∧
    (AllRam (T0.running [0x69, 0x01, 0x00]) ∧ (T0.running [0x69, 0x01, 0x00]).run = .running ∧
      ∀ i u, fetchInstr (T0.running [0x69, 0x01, 0x00]) = .ok (i, u) →
        runnable i (T0.running [0x69, 0x01, 0x00]) = true) ∧
    (AllRam { T0 with run := .waiting } ∧ { T0 with run := .waiting }.run ≠ .running) := by
  refine ⟨⟨T0_ram, rfl, rfl, rfl⟩, ⟨allRam_flat rfl, rfl⟩, ⟨allRam_flat rfl, rfl, fun i u h => ?_⟩, allRam_flat rfl,
    by decide⟩
  have e : fetchInstr (T0.running [0x69, 0x01, 0x00]) =
      .ok (.adcImmM (.word 0x0001), { T0.running [0x69, 0x01, 0x00] with pc := 0x8003 }) := rfl
  rw [e] at h
  cases h
  rfl

/-- `WDM` in both behaviours. -/
theorem witness_NopWdmWaiStp :
    T0.cfg.wdmBehaviour = .fatal ∧ { Config.default with wdmBehaviour := .nop2 }.wdmBehaviour = .nop2 := by decide

end Sys2Proof.Tests
end

section
/-! SUPPORT. What every step and every host operation keeps: the parameters, the image, the canonical form of memory and the
Emulation invariant of `S` (`10_state.md` R12, R21). Each operation is shown once to keep them; the
invariant follows by composition. -/

namespace Sys2Proof.Machine

open Sys2Proof

/-- `t` has the parameters and the image of `s`, and each part of the invariant that `s` has. -/
structure KeepsInv (s t : State) : Prop extends SameMap s t where
  page : s.stackPageOk = true → t.stackPageOk = true

theorem KeepsInv.refl (s : State) : KeepsInv s s := ⟨SameMap.refl s, id⟩

theorem KeepsInv.trans {s t u : State} (h : KeepsInv s t) (h' : KeepsInv t u) : KeepsInv s u :=
  ⟨h.toSameMap.trans h'.toSameMap, h'.page ∘ h.page⟩

theorem KeepsInv.of_keeps {k : Changes} {s t : State} (h : Keeps k s t) : KeepsInv s t :=
  ⟨⟨h.cfg, h.rom, h.wf⟩, h.page⟩

/-- Reads change nothing the invariant speaks of. -/
theorem KeepsInv.of_reads {s t : State}
    (h : t = { s with draws := t.draws, bus := { s.bus with device := t.bus.device } }) : KeepsInv s t :=
  .of_keeps (keeps_of_draws h)

theorem inv_iff {s : State} : s.inv = true ↔ s.stackPageOk = true ∧ s.bus.wf = true := by
  simp [State.inv]

/-- The claim of `StepKeepsInvariant` for one operation. -/
theorem KeepsInv.claim {s t : State} (h : KeepsInv s t) (hs : s.inv = true) :
    t.inv = true ∧ t.cfg = s.cfg ∧ t.bus.rom = s.bus.rom := by
  obtain ⟨hpage, hwf⟩ := inv_iff.mp hs
  exact ⟨inv_iff.mpr ⟨h.page hpage, h.wf hwf⟩, h.cfg, h.rom⟩

/-! ## The step -/

theorem fetchInstr_keepsInv {s t : State} {i : Instr} (h : fetchInstr s = .ok (i, t)) : KeepsInv s t := by
  rw [fetchInstr_frame h]
  exact ⟨⟨rfl, rfl, id⟩, id⟩

/-- In Waiting, Stopped and Halted a step changes nothing (`10_state.md` R31). -/
theorem step_of_not_running {s : State} (h : s.run ≠ .running) : step s = .next s := by
  cases hr : s.run with
  | running => exact absurd hr h
  | waiting | stopped | halted reason => simp only [step, hr]

/-- How a step ends in Running: by the instruction it has fetched, or by a stop of the fetch. -/
theorem step_of_running {s : State} (h : s.run = .running) :
    (∃ i u, fetchInstr s = .ok (i, u) ∧ step s = exec i u) ∨
    (∃ e, fetchInstr s = .error e ∧ step s = e.answer) := by
  cases hf : fetchInstr s with
  | ok x => exact .inl ⟨x.1, x.2, rfl, by simp only [step, h, hf]⟩
  | error e => exact .inr ⟨e, rfl, by simp only [step, h, hf]⟩

theorem Stop.answer_ne_next (e : Stop) (t : State) : e.answer ≠ .next t := by
  cases e <;> simp [Stop.answer]

theorem step_keepsInv {s t : State} (h : step s = .next t) : KeepsInv s t := by
  by_cases hr : s.run = .running
  · rcases step_of_running hr with ⟨i, u, hf, hs⟩ | ⟨e, -, hs⟩
    · exact (fetchInstr_keepsInv hf).trans (.of_keeps (exec_keeps i u t (hs ▸ h)))
    · exact absurd (hs ▸ h) (e.answer_ne_next t)
  · rw [step_of_not_running hr] at h
    cases h
    exact .refl s

/-! ## Fatal errors: the Bus a fault carries (`60_exceptions.md` R322) -/

/-- A Bus with the image of `s`, and canonical stores where those of `s` are. -/
def KeepsBus (s : State) (bus : Bus) : Prop := bus.rom = s.bus.rom ∧ (s.bus.wf = true → bus.wf = true)

theorem KeepsBus.of_sameMap {s t : State} {bus : Bus} (h : KeepsBus t bus) (m : SameMap s t) : KeepsBus s bus :=
  ⟨h.1.trans m.rom, h.2 ∘ m.wf⟩

theorem BusStop.keepsBus {s : State} {reason : FatalReason} {bus : Bus}
    (h : BusStop s (.fault (.fatal reason bus))) : KeepsBus s bus := h.2

theorem exec_fault_keepsBus {i : Instr} {s : State} {reason : FatalReason} {bus : Bus}
    (h : exec i s = .fault (.fatal reason bus)) : KeepsBus s bus := by
  rcases exec_stops i s (.fault (.fatal reason bus)) h with hb | ⟨he, -⟩ | ⟨he, -⟩
  · exact hb.keepsBus
  · cases he
    exact ⟨rfl, id⟩
  · cases he

theorem step_fault_keepsBus {s : State} {reason : FatalReason} {bus : Bus}
    (h : step s = .fault (.fatal reason bus)) : KeepsBus s bus := by
  by_cases hr : s.run = .running
  · rcases step_of_running hr with ⟨i, u, hf, hs⟩ | ⟨e, hf, hs⟩
    · exact (exec_fault_keepsBus (hs ▸ h)).of_sameMap (fetchInstr_keepsInv hf).toSameMap
    · rw [hs] at h
      cases e with
      | fault f =>
        cases h
        exact ((fetchInstr_stops s).1 _ hf).keepsBus
      | refused r => cases h
  · rw [step_of_not_running hr] at h
    cases h

/-- Recording a fatal error keeps the invariant where the operation itself does, and its fault's Bus does. -/
theorem recordFatal_keepsInv {s t : State} {o : Answer} (hnext : ∀ u, o = .next u → KeepsInv s u)
    (hfault : ∀ reason bus, o = .fault (.fatal reason bus) → KeepsBus s bus) (h : recordFatal s o = .next t) :
    KeepsInv s t := by
  cases o with
  | next u => cases h; exact hnext t rfl
  | fault f =>
    cases f with
    | fatal reason bus =>
      cases h
      obtain ⟨hrom, hwf⟩ := hfault reason bus rfl
      exact ⟨⟨rfl, hrom, hwf⟩, id⟩
  | refused r => cases h

theorem finish_fault_keepsBus {s : State} {m : Except Stop State} (hm : BusStops s m) {reason : FatalReason} {bus : Bus}
    (h : finish m = .fault (.fatal reason bus)) : KeepsBus s bus :=
  (AnswerStops.finish hm (.fault (.fatal reason bus)) h).keepsBus

theorem hostStep_keepsInv {s t : State} (h : hostStep s = .next t) : KeepsInv s t :=
  recordFatal_keepsInv (fun _ => step_keepsInv) (fun _ _ => step_fault_keepsBus) h

/-! ## The host's operations -/

theorem interruptEntry_keepsInv {kind : InterruptKind} {retpc : Word} {s t : State}
    (h : interruptEntry kind retpc s = .ok t) : KeepsInv s t := by
  have hentry := interruptEntry_entryOnly h
  exact ⟨⟨by rw [hentry.frame], hentry.rom, hentry.wf⟩, hentry.page⟩

theorem keepsInv_with_run (s : State) (r : Run) : KeepsInv s { s with run := r } := ⟨⟨rfl, rfl, id⟩, id⟩

theorem keepsInv_with_draws (s : State) (n : Nat) : KeepsInv s { s with draws := n } := ⟨⟨rfl, rfl, id⟩, id⟩

/-- An entry from Running, its fatal error recorded over the state before it (`60_exceptions.md` R311, R318). -/
theorem recordedEntry_keepsInv {kind : InterruptKind} {retpc : Word} {s t : State}
    (h : recordFatal s (finish (interruptEntry kind retpc { s with run := .running })) = .next t) : KeepsInv s t := by
  have hrun := keepsInv_with_run s .running
  refine recordFatal_keepsInv (fun u hu => ?_) (fun _ _ hf => ?_) h
  · exact hrun.trans (interruptEntry_keepsInv (ok_of_finish hu))
  · exact (finish_fault_keepsBus (interruptEntry_stops _ _ _) hf).of_sameMap hrun.toSameMap

theorem interrupt_keepsInv {kind : HardwareInterrupt} {s t : State} (h : interrupt kind s = .next t) :
    KeepsInv s t := by
  unfold interrupt at h
  split at h
  · split at h
    · cases h; exact .refl s
    · cases h; exact .refl s
    all_goals
      split at h
      · cases h; exact keepsInv_with_run s .running
      · exact recordedEntry_keepsInv h
  · cases h

theorem resetRegisters_keepsInv (draws : Draws) (s : State) : KeepsInv s (resetRegisters draws s) :=
  ⟨⟨rfl, rfl, id⟩, fun _ => by simp [State.stackPageOk, resetRegisters]⟩

theorem resetWith_keepsInv {draws : Draws} {s t : State} (h : resetWith draws s = .next t) : KeepsInv s t := by
  refine (resetRegisters_keepsInv draws s).trans (recordFatal_keepsInv (fun u hu => ?_) (fun _ _ hf => ?_) h)
  · obtain ⟨⟨v, w⟩, hread, hu⟩ := bind_eq_ok.mp (ok_of_finish hu)
    cases hu
    exact (KeepsInv.of_reads (readWord_frame hread)).trans ⟨⟨rfl, rfl, id⟩, id⟩
  · exact finish_fault_keepsBus (readWord_stops _ _).then_ok hf

theorem hostReset_keepsInv {s t : State} (h : hostReset s = .next t) : KeepsInv s t := by
  unfold hostReset at h
  split at h
  · cases h; exact .refl s
  all_goals exact (keepsInv_with_draws s (s.draws + 11)).trans (resetWith_keepsInv h)

theorem hostWrite_keepsInv (w : HostWrite) (s : State) : KeepsInv s (hostWrite w s) := by
  cases w with
  | sp v => exact ⟨⟨rfl, rfl, id⟩, fun _ => writeS_stackPageOk s v⟩
  | e b => exact ⟨⟨rfl, rfl, id⟩, fun _ => writeS_stackPageOk _ s.sp⟩
  | run r =>
    simp only [hostWrite]
    split
    · exact .refl s
    all_goals exact keepsInv_with_run s r
  | a v | x v | y v | d v | db v | pb v | pc v | flag f b => exact ⟨⟨rfl, rfl, id⟩, id⟩

theorem hostDevice_keepsInv (d : DeviceState) (s : State) : KeepsInv s (hostDevice d s) := ⟨⟨rfl, rfl, id⟩, id⟩

/-- The host's change of a stored byte changes nothing but the Bus. -/
theorem poke_frame (s : State) (addr : Addr) (v : Byte) : poke s addr v = { s with bus := (poke s addr v).bus } := by
  unfold poke
  split <;> rfl

/-- The host's change of a stored byte keeps the canonical form, in the image too. -/
theorem poke_wf (s : State) (addr : Addr) (v : Byte) (h : s.bus.wf = true) : (poke s addr v).bus.wf = true := by
  have hwf := h
  simp only [Bus.wf, Bool.and_eq_true] at hwf ⊢
  obtain ⟨⟨hwram, hsram⟩, hrom⟩ := hwf
  unfold poke
  split
  · exact ⟨⟨Memory.wf_write _ _ _ hwram, hsram⟩, hrom⟩
  · exact ⟨⟨hwram, Memory.wf_write _ _ _ hsram⟩, hrom⟩
  · exact ⟨⟨hwram, hsram⟩, Memory.wf_write _ _ _ hrom⟩
  all_goals exact ⟨⟨hwram, hsram⟩, hrom⟩

theorem poke_inv {s : State} (addr : Addr) (v : Byte) (h : s.inv = true) : (poke s addr v).inv = true := by
  obtain ⟨hpage, hwf⟩ := inv_iff.mp h
  refine inv_iff.mpr ⟨?_, poke_wf s addr v hwf⟩
  rw [poke_frame]
  exact hpage

/-- Settles O58: every operation keeps each part of the invariant, the map and the image, once per operation. -/
theorem stepKeepsInvariant : Obligations.StepKeepsInvariant := by
  intro s t hs
  refine ⟨fun h => (step_keepsInv h).claim hs, fun h => (hostStep_keepsInv h).claim hs,
    fun _ h => (interrupt_keepsInv h).claim hs, fun h => (hostReset_keepsInv h).claim hs, ?_, ?_, ?_⟩
  · rintro w rfl
    exact (hostWrite_keepsInv w s).claim hs
  · rintro d rfl
    exact (hostDevice_keepsInv d s).claim hs
  · rintro addr v rfl
    exact ⟨poke_inv addr v hs, by rw [poke_frame]⟩

/-- Settles O8: `step` fetches in Running only. -/
theorem stepOutsideRunningChangesNothing : Obligations.StepOutsideRunningChangesNothing :=
  fun _ => step_of_not_running

/-- Settles O11: the base case of O58. After reset `S` is in page 1 and no store lists a byte. -/
theorem invariantHoldsAtReset : Obligations.InvariantHoldsAtReset := by
  have hpage : State.reset.stackPageOk = true := rfl
  exact inv_iff.mpr ⟨hpage, State.reset_bus_wf⟩

end Sys2Proof.Machine
end

section
/-! SUPPORT. The registers and flags instructions write: `changesOf` against the spec's lists (`10_state.md` R13 to R16, R21,
R27, R31), the hidden high bytes (R10, R11, R24), and the widths and the status byte (R19 to R26). -/

namespace Sys2Proof.Machine

open Sys2Proof

/-! ## The lists of the rules -/

/-- What is different after an instruction is among its changes. -/
theorem changed_of_ne {α : Type} {k : Bool} {x y : α} (hkeep : k = false → x = y) (hne : x ≠ y) : k = true :=
  Bool.eq_true_of_not_eq_false (mt hkeep hne)

/-- The mnemonics that may change each register, `E` and `run`. -/
theorem changesOf_registers (mn : Mnemonic) (acc e : Bool) :
    ((changesOf mn acc e).a = true → mn ∈ [.lda, .adc, .sbc, .and, .ora, .eor, .pla, .txa, .tya, .tdc, .tsc, .xba, .mvn,
      .mvp] ∨ acc = true) ∧
    ((changesOf mn acc e).x = true → mn ∈ [.ldx, .inx, .dex, .plx, .tax, .tyx, .tsx, .mvn, .mvp]) ∧
    ((changesOf mn acc e).y = true → mn ∈ [.ldy, .iny, .dey, .ply, .tay, .txy, .mvn, .mvp]) ∧
    ((changesOf mn acc e).sp = true → mn ∈ [.pha, .phx, .phy, .php, .phb, .phd, .phk, .pla, .plx, .ply, .plp, .plb, .pld,
      .pea, .pei, .per, .jsr, .jsl, .rts, .rtl, .brk, .cop, .rti, .txs, .tcs, .xce]) ∧
    ((changesOf mn acc e).d = true → mn ∈ [.tcd, .pld]) ∧
    ((changesOf mn acc e).db = true → mn ∈ [.plb, .mvn, .mvp]) ∧
    ((changesOf mn acc e).pb = true → mn ∈ [.jml, .jsl, .rtl] ∨ (mn ∈ [.rti, .brk, .cop] ∧ e = false)) ∧
    ((changesOf mn acc e).pc = true → mn ∈ [.bpl, .bmi, .bvc, .bvs, .bcc, .bcs, .bne, .beq, .bra, .brl, .jmp, .jml, .jsr,
      .jsl, .rts, .rtl, .rti, .brk, .cop, .mvn, .mvp]) ∧
    ((changesOf mn acc e).e = true → mn = .xce) ∧
    ((changesOf mn acc e).run = true → mn ∈ [.wai, .stp]) := by
  cases mn <;> simp [changesOf, Changes.nz, Changes.flags]

/-- The mnemonics that may change each flag; for `N` and `Z`, those that may not. -/
theorem changesOf_flags (mn : Mnemonic) (acc e : Bool) :
    ((changesOf mn acc e).fc = true → mn ∈ [.adc, .sbc, .cmp, .cpx, .cpy, .asl, .lsr, .rol, .ror, .clc, .sec, .xce, .rep,
      .sep, .plp, .rti]) ∧
    ((changesOf mn acc e).fi = true → mn ∈ [.brk, .cop, .sei, .cli, .rep, .sep, .plp, .rti]) ∧
    ((changesOf mn acc e).fd = true → mn ∈ [.brk, .cop, .sed, .cld, .rep, .sep, .plp, .rti]) ∧
    ((changesOf mn acc e).fx = true → mn ∈ [.rep, .sep, .plp, .rti]) ∧
    ((changesOf mn acc e).fm = true → mn ∈ [.rep, .sep, .plp, .rti]) ∧
    ((changesOf mn acc e).fv = true → mn ∈ [.adc, .sbc, .bit, .clv, .rep, .sep, .plp, .rti]) ∧
    ((changesOf mn acc e).fn = true ∨ (changesOf mn acc e).fz = true → mn ∉ [.sta, .stx, .sty, .stz, .txs, .tcs, .bpl,
      .bmi, .bvc, .bvs, .bcc, .bcs, .bne, .beq, .bra, .brl, .jmp, .jml, .jsr, .jsl, .rts, .rtl, .pha, .phx, .phy, .php,
      .phb, .phd, .phk, .pea, .pei, .per, .mvn, .mvp, .nop, .wdm, .wai, .stp, .brk, .cop, .clc, .sec, .cli, .sei, .cld,
      .sed, .clv, .xce]) ∧
    ((changesOf mn acc e).fn = true → mn ∉ [.tsb, .trb]) := by
  cases mn <;> simp [changesOf, Changes.nz, Changes.flags]

/-- Settles O54: what differs after an instruction is among its changes (`exec_keeps`), and those are in the lists. -/
theorem onlyListedInstructionsWriteRegisters : Obligations.OnlyListedInstructionsWriteRegisters := by
  intro i s t h
  have K := exec_keeps i s t h
  obtain ⟨ha, hx, hy, hsp, hd, hdb, hpb, hpc, he, hrun⟩ := changesOf_registers i.mnemonic (i.operand == .acc) s.e
  exact ⟨fun ne => (ha (changed_of_ne K.a ne)).imp_right eq_of_beq, fun ne => hx (changed_of_ne K.x ne),
    fun ne => hy (changed_of_ne K.y ne), fun ne => hsp (changed_of_ne K.sp ne), fun ne => hd (changed_of_ne K.d ne),
    fun ne => hdb (changed_of_ne K.db ne), fun ne => hpb (changed_of_ne K.pb ne), fun ne => hpc (changed_of_ne K.pc ne),
    fun ne => he (changed_of_ne K.e ne), fun ne => hrun (changed_of_ne K.run ne), K.cfg⟩

/-- Settles O55, as O54 for the flags. -/
theorem onlyListedInstructionsWriteFlags : Obligations.OnlyListedInstructionsWriteFlags := by
  intro i s t h
  have K := exec_keeps i s t h
  obtain ⟨hc, hi, hd, hx, hm, hv, hnz, hn⟩ := changesOf_flags i.mnemonic (i.operand == .acc) s.e
  exact ⟨fun ne => hc (changed_of_ne K.fc ne), fun ne => hi (changed_of_ne K.fi ne), fun ne => hd (changed_of_ne K.fd ne),
    fun ne => hx (changed_of_ne K.fx ne), fun ne => hm (changed_of_ne K.fm ne), fun ne => hv (changed_of_ne K.fv ne),
    fun ne => hnz (ne.imp (changed_of_ne K.fn) (changed_of_ne K.fz)), fun ne => hn (changed_of_ne K.fn ne)⟩

/-! ## The hidden high bytes -/

/-- A register written with its own value is unchanged. -/
theorem mergeW_self (w : Width) (v : Word) : mergeW w v v = v := by
  cases w <;> simp [mergeW]

/-- A write at width 8 keeps the high byte (`10_state.md` R24). -/
theorem highByte_mergeW_w8 (old v : Word) : highByte (mergeW .w8 old v) = highByte old := highByte_mkWord _ _

/-- Where `A`, `E` and `P.M` are as before, `WriteA` writes as before. -/
theorem Keeps.writeA_a {k : Changes} {s u : State} (K : Keeps k s u) (ha : k.a = false) (he : k.e = false)
    (hm : k.fm = false) (v : Word) : (u.writeA v).a = (s.writeA v).a := by
  simp only [State.writeA_a, State.wA, State.m8, K.a ha, K.e he, K.fm hm]

/-- Where `X`, `E` and `P.X` are as before, `WriteX` writes as before. -/
theorem Keeps.writeX_x {k : Changes} {s u : State} (K : Keeps k s u) (hx : k.x = false) (he : k.e = false)
    (hf : k.fx = false) (v : Word) : (u.writeX v).x = (s.writeX v).x := by
  simp only [State.writeX_x, State.wX, State.x8, K.x hx, K.e he, K.fx hf]

/-- Where `Y`, `E` and `P.X` are as before, `WriteY` writes as before. -/
theorem Keeps.writeY_y {k : Changes} {s u : State} (K : Keeps k s u) (hy : k.y = false) (he : k.e = false)
    (hf : k.fx = false) (v : Word) : (u.writeY v).y = (s.writeY v).y := by
  simp only [State.writeY_y, State.wX, State.x8, K.y hy, K.e he, K.fx hf]

/-- Every instruction but the whole-register moves writes `A` with `WriteA`, if at all. -/
theorem exec_writesA (i : Instr) (s t : State) (h : exec i s = .next t)
    (hmn : i.mnemonic ∉ [.xba, .tdc, .tsc, .mvn, .mvp]) : ∃ v, t.a = (s.writeA v).a := by
  have K := exec_keeps i s t h
  have kept : (changesOf i.mnemonic (i.operand == .acc) s.e).a = false → ∃ v, t.a = (s.writeA v).a :=
    fun hk => ⟨s.a, (K.a hk).trans (mergeW_self _ _).symm⟩
  have ho := operand_of_mnemonic i
  rw [exec_eq_form] at h
  generalize i.operand = o at *
  generalize i.mnemonic = mn at *
  cases mn <;> simp only [execForm] at h <;> simp only at ho
  case lda | and | ora | eor =>
    all_goals
      obtain ⟨d, rfl⟩ := ho
      simp only [onData, opLda, opAnd, opOra, opEor] at h
      obtain ⟨⟨v, u⟩, hload, h⟩ := bind_eq_ok.mp (ok_of_finish h)
      cases h
      exact ⟨_, (keeps_of_draws (load_frame hload)).writeA_a rfl rfl rfl _⟩
  case adc | sbc =>
    all_goals
      obtain ⟨d, rfl⟩ := ho
      simp only [onData, opAdc, opSbc] at h
      obtain ⟨_, -, h⟩ := bind_eq_ok.mp (ok_of_finish h)
      obtain ⟨⟨v, u⟩, hload, h⟩ := bind_eq_ok.mp h
      cases h
      exact ⟨_, (keeps_of_draws (load_frame hload)).writeA_a rfl rfl rfl _⟩
  case pla =>
    obtain ⟨⟨v, u⟩, hpull, h⟩ := bind_eq_ok.mp (ok_of_finish h)
    cases h
    exact ⟨v, (keeps_of_pullOnly (pullW_pullOnly hpull)).writeA_a rfl rfl rfl v⟩
  case txa | tya => all_goals cases h; exact ⟨_, rfl⟩
  case inc | dec | asl | lsr | rol | ror =>
    all_goals
      rcases ho with rfl | ⟨m, rfl⟩
      · cases h; exact ⟨_, rfl⟩
      · exact kept rfl
  case xba | tdc | tsc | mvn | mvp => all_goals exact absurd hmn (by simp)
  all_goals exact kept rfl

/-- A block move writes the index registers with `WriteX` and `WriteY` (`46_block_move.md` R280). -/
theorem blockMove_writesIndex {delta : Word} {dst src : Byte} {s t : State} (h : blockMove delta dst src s = .next t) :
    (∃ v, t.x = (s.writeX v).x) ∧ ∃ v, t.y = (s.writeY v).y := by
  obtain ⟨⟨b, u⟩, hread, h⟩ := bind_eq_ok.mp (ok_of_finish h)
  obtain ⟨w, hwrite, h⟩ := bind_eq_ok.mp h
  have K : Keeps {} s w := (keeps_of_draws (readByte_frame hread)).trans (keeps_of_ramOnly (writeByte_ramOnly hwrite))
  cases h
  split <;> exact ⟨⟨_, K.writeX_x rfl rfl rfl _⟩, _, K.writeY_y rfl rfl rfl _⟩

/-- Every instruction writes `X` with `WriteX` and `Y` with `WriteY`, if at all. -/
theorem exec_writesIndex (i : Instr) (s t : State) (h : exec i s = .next t) :
    (∃ v, t.x = (s.writeX v).x) ∧ ∃ v, t.y = (s.writeY v).y := by
  have K := exec_keeps i s t h
  have keptX : (changesOf i.mnemonic (i.operand == .acc) s.e).x = false → ∃ v, t.x = (s.writeX v).x :=
    fun hk => ⟨s.x, (K.x hk).trans (mergeW_self _ _).symm⟩
  have keptY : (changesOf i.mnemonic (i.operand == .acc) s.e).y = false → ∃ v, t.y = (s.writeY v).y :=
    fun hk => ⟨s.y, (K.y hk).trans (mergeW_self _ _).symm⟩
  have ho := operand_of_mnemonic i
  rw [exec_eq_form] at h
  generalize i.operand = o at *
  generalize i.mnemonic = mn at *
  cases mn <;> simp only [execForm] at h <;> simp only at ho
  case ldx =>
    obtain ⟨d, rfl⟩ := ho
    obtain ⟨⟨v, u⟩, hload, h⟩ := bind_eq_ok.mp (ok_of_finish h)
    cases h
    exact ⟨⟨v, (keeps_of_draws (load_frame hload)).writeX_x rfl rfl rfl v⟩, keptY rfl⟩
  case ldy =>
    obtain ⟨d, rfl⟩ := ho
    obtain ⟨⟨v, u⟩, hload, h⟩ := bind_eq_ok.mp (ok_of_finish h)
    cases h
    exact ⟨keptX rfl, v, (keeps_of_draws (load_frame hload)).writeY_y rfl rfl rfl v⟩
  case plx =>
    obtain ⟨⟨v, u⟩, hpull, h⟩ := bind_eq_ok.mp (ok_of_finish h)
    cases h
    exact ⟨⟨v, (keeps_of_pullOnly (pullW_pullOnly hpull)).writeX_x rfl rfl rfl v⟩, keptY rfl⟩
  case ply =>
    obtain ⟨⟨v, u⟩, hpull, h⟩ := bind_eq_ok.mp (ok_of_finish h)
    cases h
    exact ⟨keptX rfl, v, (keeps_of_pullOnly (pullW_pullOnly hpull)).writeY_y rfl rfl rfl v⟩
  case inx | dex | tax | tyx | tsx => all_goals cases h; exact ⟨⟨_, rfl⟩, keptY rfl⟩
  case iny | dey | tay | txy => all_goals cases h; exact ⟨keptX rfl, _, rfl⟩
  case mvn | mvp =>
    all_goals
      obtain ⟨dst, src, rfl⟩ := ho
      exact blockMove_writesIndex h
  all_goals exact ⟨keptX rfl, keptY rfl⟩

/-- `WriteA` at width 8 keeps the hidden high byte. -/
theorem highByte_writeA_a {s : State} (h : s.m8 = true) (v : Word) : highByte (s.writeA v).a = highByte s.a := by
  simp only [State.writeA_a, State.wA, widthOf, h, if_true, highByte_mergeW_w8]

/-- `WriteX` at width 8 keeps the hidden high byte. -/
theorem highByte_writeX_x {s : State} (h : s.x8 = true) (v : Word) : highByte (s.writeX v).x = highByte s.x := by
  simp only [State.writeX_x, State.wX, widthOf, h, if_true, highByte_mergeW_w8]

/-- `WriteY` at width 8 keeps the hidden high byte. -/
theorem highByte_writeY_y {s : State} (h : s.x8 = true) (v : Word) : highByte (s.writeY v).y = highByte s.y := by
  simp only [State.writeY_y, State.wX, widthOf, h, if_true, highByte_mergeW_w8]

/-- Settles O57: the registers are written by `WriteA`, `WriteX` and `WriteY` only, which keep the high byte at width 8. -/
theorem hiddenHighBytesAreKept : Obligations.HiddenHighBytesAreKept := by
  intro i s t h
  refine ⟨fun hm8 hmn => ?_, fun hx8 => ?_⟩
  · obtain ⟨v, hv⟩ := exec_writesA i s t h hmn
    rw [hv]
    exact highByte_writeA_a hm8 v
  · obtain ⟨⟨v, hv⟩, w, hw⟩ := exec_writesIndex i s t h
    rw [hv, hw]
    exact ⟨highByte_writeX_x hx8 v, highByte_writeY_y hx8 w⟩

/-! ## Widths, register writes and the status byte -/

theorem toNat_aV (s : State) : s.aV.toNat = if s.e || s.p.m then s.a.toNat % 256 else s.a.toNat := by
  have := s.a.isLt
  cases he : (s.e || s.p.m) <;> simp [State.aV, State.wA, State.m8, he, widthOf, toNat_truncW, bitsOf]
  omega

/-- A register write at the width a predicate selects (`10_state.md` R24). -/
theorem mergeW_widthOf (narrow : Bool) (old v : Word) :
    mergeW (widthOf narrow) old v = if narrow then mkWord (highByte old) (lowByte v) else v := by
  cases narrow <;> rfl

/-- The zero test of a width, on numbers (`10_state.md` R26). -/
theorem truncW_beq_zero (w : Width) (v : Word) : (truncW w v == 0) = decide (v.toNat % 2 ^ bitsOf w = 0) := by
  rw [← toNat_truncW, beq_eq_decide]
  exact decide_eq_decide.mpr BitVec.toNat_inj.symm

/-- Settles O16: the values and the zero tests as numbers; the register writes unfold to `mergeW` at the width. -/
theorem widthsAndRegisterWrites : Obligations.WidthsAndRegisterWrites := by
  intro s v
  have hz8 : (truncW .w8 v == 0) = decide (v.toNat % 256 = 0) := truncW_beq_zero .w8 v
  have hz16 : (truncW .w16 v == 0) = decide (v.toNat = 0) := by
    rw [truncW_beq_zero, show 2 ^ bitsOf .w16 = 65536 from rfl, Nat.mod_eq_of_lt v.isLt]
  refine ⟨rfl, rfl, toNat_aV s, toNat_xV s, toNat_yV s, ?_, ?_, ?_, rfl, ?_, ?_⟩
  · simp only [State.writeA, State.wA, mergeW_widthOf, State.m8]
  · simp only [State.writeX, State.wX, mergeW_widthOf, State.x8]
  · simp only [State.writeY, State.wX, mergeW_widthOf, State.x8]
  · simp only [State.setNZ, topBit, hz8]
  · simp only [State.setNZ, topBit, hz16]

/-- The status byte as a number (`10_state.md` R19). -/
theorem Flags.toNat_toByte (p : Flags) :
    p.toByte.toNat = p.n.toNat * 128 + p.v.toNat * 64 + p.m.toNat * 32 + p.x.toNat * 16 + p.d.toNat * 8 +
      p.i.toNat * 4 + p.z.toNat * 2 + p.c.toNat := by
  have := p.c.toNat_le; have := p.z.toNat_le; have := p.i.toNat_le; have := p.d.toNat_le
  have := p.x.toNat_le; have := p.m.toNat_le; have := p.v.toNat_le; have := p.n.toNat_le
  rw [Flags.toByte, BitVec.toNat_ofNat]
  omega

/-- Settles O17: the flag vector and the status byte are the same data (`Flags.ofByte_toByte`, `Flags.toByte_ofByte`). -/
theorem statusByteLayout : Obligations.StatusByteLayout := by
  intro s b
  refine ⟨s.p.toNat_toByte, rfl, ?_, Flags.toByte_ofByte b⟩
  rw [State.setP, Flags.ofByte_toByte]

end Sys2Proof.Machine
end

section
/-! SUPPORT. The Bus, place by place (`20_memory.md` R40 to R57): what an access to each kind of address answers, what a
write to RAM leaves behind every mirror of it, and that where every address names RAM every runnable instruction
completes. -/

namespace Sys2Proof.Machine

open Sys2Proof

/-! ## What an access answers, by the place the address names -/

theorem readByte_of_unmapped {s : State} {addr : Addr} (h : locate s.cfg addr = .unmapped) :
    readByte addr s = .error (fatal (.unmappedAddress addr) s) := by
  simp only [readByte, h]

theorem writeByte_of_unmapped {s : State} {addr : Addr} (h : locate s.cfg addr = .unmapped) (v : Byte) :
    writeByte addr v s = .error (fatal (.unmappedAddress addr) s) := by
  simp only [writeByte, h]

theorem readByte_of_rom {s : State} {addr : Addr} {i : Nat} (h : locate s.cfg addr = .rom i) :
    readByte addr s = if i < s.cfg.imageSize then .ok (Memory.read s.bus.rom i, s)
      else .error (fatal (.unmappedAddress addr) s) := by
  simp only [readByte, h]

theorem writeByte_of_rom {s : State} {addr : Addr} {i : Nat} (h : locate s.cfg addr = .rom i) (v : Byte) :
    writeByte addr v s = .error (fatal (.writeToReadOnly addr) s) := by
  simp only [writeByte, h]

theorem readByte_of_refusing_window {s : State} {addr : Addr} (h : locate s.cfg addr = .registerWindow)
    (hp : s.cfg.regWindowPolicy = .refuse) : readByte addr s = .error (.refused (.registerWindow addr)) := by
  simp only [readByte, h, hp]

theorem writeByte_of_refusing_window {s : State} {addr : Addr} (h : locate s.cfg addr = .registerWindow)
    (hp : s.cfg.regWindowPolicy = .refuse) (v : Byte) :
    writeByte addr v s = .error (.refused (.registerWindow addr)) := by
  simp only [writeByte, h, hp]

theorem readByte_of_stubbed_window {s : State} {addr : Addr} (h : locate s.cfg addr = .registerWindow)
    (hp : s.cfg.regWindowPolicy = .stub) :
    readByte addr s = .ok (freeByte s.draws, { s with draws := s.draws + 1 }) := by
  simp only [readByte, h, hp]

theorem writeByte_of_stubbed_window {s : State} {addr : Addr} (h : locate s.cfg addr = .registerWindow)
    (hp : s.cfg.regWindowPolicy = .stub) (v : Byte) : writeByte addr v s = .ok s := by
  simp only [writeByte, h, hp]

/-- A fatal error of the opcode fetch, or a refusal, is the answer of the step. -/
theorem step_of_opcode_fetch_error {s : State} {e : Stop} (hr : s.run = .running)
    (h : readByte (mkAddr s.pb s.pc) s = .error e) : step s = e.answer := by
  have hfetch : fetchInstr s = .error e := by simp only [fetchInstr, fetchByte, h, error_bind]
  simp only [step, hr, hfetch]

/-- Settles O13: both operations raise the fatal error of the place; a step raises that of its opcode fetch. -/
theorem unmappedAccessAndRomWriteAreFatal : Obligations.UnmappedAccessAndRomWriteAreFatal := by
  intro s addr v
  refine ⟨fun h => ⟨readByte_of_unmapped h, writeByte_of_unmapped h v⟩, fun i h => writeByte_of_rom h v, fun hr h => ?_⟩
  exact step_of_opcode_fetch_error hr (readByte_of_unmapped h)

/-- Settles O15: a window by its policy; a device by the two operations of the parameter `BUS`. -/
theorem registerWindowFollowsPolicy : Obligations.RegisterWindowFollowsPolicy := by
  intro s addr v
  refine ⟨fun h => ⟨fun hp => ?_, fun hp => ?_⟩, fun h => ⟨?_, ?_⟩⟩
  · exact ⟨readByte_of_refusing_window h hp, writeByte_of_refusing_window h hp v⟩
  · exact ⟨writeByte_of_stubbed_window h hp v, _, _, readByte_of_stubbed_window h hp⟩
  · simp only [readByte, h]
    rfl
  · simp only [writeByte, h]
    rfl

/-! ## The image byte behind a ROM address -/

/-- The first region that holds an address decides what it names (R51). -/
theorem locate_of_find {cfg : Config} {addr : Addr} {r : Region}
    (h : cfg.regionMap.find? (fun r => regionCovers cfg.mapFamily r (bankOf addr).toNat (offsetOf addr).toNat) =
      some r) :
    locate cfg addr = regionPlace cfg r (bankOf addr).toNat (offsetOf addr).toNat := by
  simp only [locate, h]

theorem romCovers_of_regionCovers {family : MapFamily} {r : Region} {bank off : Nat}
    (h : regionCovers family r bank off = true) (hk : r.kind = .rom) : romCovers family r bank off = true := by
  simpa [regionCovers, hk] using (Bool.and_eq_true_iff.mp h).2

/-- The region found for an address holds it. -/
theorem regionCovers_of_find {family : MapFamily} {regions : List Region} {r : Region} {bank off : Nat}
    (h : regions.find? (fun r => regionCovers family r bank off) = some r) : regionCovers family r bank off = true :=
  List.find?_some (p := fun r => regionCovers family r bank off) h

/-- In the Lo family only the upper half of a bank is ROM (R55). -/
theorem offset_of_romCovers_lo {family : MapFamily} {r : Region} {bank off : Nat}
    (h : romCovers family r bank off = true) (hf : family = .lo ∨ family = .fastLo) : 0x8000 ≤ off := by
  rcases hf with rfl | rfl <;> exact of_decide_eq_true (Bool.and_eq_true_iff.mp h).2

/-- What an address of a ROM region names: R55's offset in the image, past R57's header. -/
theorem regionPlace_of_rom (cfg : Config) {r : Region} (hk : r.kind = .rom) (bank off : Nat) :
    regionPlace cfg r bank off = .rom (romOffset cfg.mapFamily r bank off + cfg.headerOffset) := by
  simp only [regionPlace, hk]

theorem romOffset_lo {family : MapFamily} (hf : family = .lo ∨ family = .fastLo) (r : Region) (bank off : Nat) :
    romOffset family r bank off = (bank - r.bankOrigin) * 0x8000 + (off - 0x8000) := by
  rcases hf with rfl | rfl <;> rfl

theorem romOffset_hi {family : MapFamily} (hf : family = .hi ∨ family = .fastHi) (r : Region) (bank off : Nat) :
    romOffset family r bank off = (bank - r.bankOrigin) * 0x10000 + off := by
  rcases hf with rfl | rfl <;> rfl

/-- Settles O14: the region that holds the address gives its place, and with it the byte of the image. -/
theorem romAddressReadsImageByte : Obligations.RomAddressReadsImageByte := by
  intro s r addr hfind hk index hindex
  have hplace : locate s.cfg addr = .rom index := by
    rw [locate_of_find hfind, regionPlace_of_rom _ hk]
    rcases hindex with ⟨hf, hi⟩ | ⟨hf, hi⟩
    · rw [romOffset_lo hf, hi]
    · rw [romOffset_hi hf, hi]
  exact ⟨offset_of_romCovers_lo (romCovers_of_regionCovers (regionCovers_of_find hfind) hk), readByte_of_rom hplace⟩

/-! ## Writing RAM and reading it back -/

/-- Two addresses of one place show the same stored byte: mirrors (R52). -/
theorem peek_mirror {s : State} {a b : Addr} (h : locate s.cfg b = locate s.cfg a) : peek s b = peek s a := by
  simp only [peek, h]

/-- A stored byte is read through every mirror of its address. -/
theorem readByte_mirror {s : State} {a b : Addr} {v : Byte} (h : peek s a = some v)
    (hb : locate s.cfg b = locate s.cfg a) : readByte b s = .ok (v, s) :=
  readByte_of_peek ((peek_mirror hb).trans h)

/-- A 16-bit write to two different RAM bytes stores the low byte at the address, the high byte after it (R43, R45). -/
theorem writeW_w16_of_isRam {s : State} {addr : Addr} (v : Word) (hw : s.bus.wf = true) (hlo : isRam s addr = true)
    (hhi : isRam s (addr + 1) = true) (hne : apart s addr (addr + 1) = true) :
    ∃ t, writeW addr .w16 v s = .ok t ∧ peek t addr = some (lowByte v) ∧ peek t (addr + 1) = some (highByte v) := by
  obtain ⟨u, hu⟩ : ∃ u, writeByte addr (lowByte v) s = .ok u := ⟨_, writeByte_of_isRam _ hlo⟩
  have hcfg : u.cfg = s.cfg := by rw [writeByte_frame hu]
  have hhi' : isRam u (addr + 1) = true := (isRam_of_cfg hcfg _).trans hhi
  obtain ⟨t, ht⟩ : ∃ t, writeByte (addr + 1) (highByte v) u = .ok t := ⟨_, writeByte_of_isRam _ hhi'⟩
  refine ⟨t, by simp only [writeW, hu, ok_bind, ht], ?_, writeByte_peek_same ht hhi' (writeByte_wf hu hw)⟩
  rw [writeByte_peek_other ht ((apart_of_cfg hcfg _ _).trans hne), writeByte_peek_same hu hlo hw]

/-- Settles O12: each byte written is stored where it belongs, and a mirror reads what is stored. -/
theorem storedWordReadsBackLittleEndian : Obligations.StoredWordReadsBackLittleEndian := by
  intro s addr v hw hlo
  refine ⟨⟨toNat_lowByte v, toNat_highByte v⟩, ?_, fun hhi hne => ?_⟩
  · obtain ⟨t, ht⟩ : ∃ t, writeByte addr (lowByte v) s = .ok t := ⟨_, writeByte_of_isRam _ hlo⟩
    have hcfg : t.cfg = s.cfg := by rw [writeByte_frame ht]
    have hpeek : peek t addr = some (lowByte v) := writeByte_peek_same ht hlo hw
    exact ⟨t, ht, ht, writeByte_frame ht, fun b hb => readByte_mirror hpeek (by rw [hcfg, hb]),
      fun b hb => writeByte_peek_other ht hb⟩
  · obtain ⟨t, ht, hpeekLo, hpeekHi⟩ := writeW_w16_of_isRam v hw hlo hhi hne
    have hframe := (writeW_ramOnly ht).frame
    have hcfg : t.cfg = s.cfg := by rw [hframe]
    have hword : readWord addr t = .ok (v, t) := by rw [readWord_of_peek hpeekLo hpeekHi, mkWord_high_low]
    exact ⟨t, ht, hframe, hword, fun b hb => readByte_mirror hpeekLo (by rw [hcfg, hb]),
      fun b hb => readByte_mirror hpeekHi (by rw [hcfg, hb]), fun b hb hb' => writeW_peek_other ht hb fun _ => hb'⟩

/-! ## Completion where every address names RAM -/

theorem AllRam.not_raisesUnmapped {s : State} (h : AllRam s) (addr : Addr) : ¬ raisesUnmapped s.cfg addr := by
  have hram : (locate s.cfg addr).isRam = true := h addr
  rintro (hl | ⟨k, hl, -⟩ | ⟨hl, -⟩) <;> simp [hl, Place.isRam] at hram

theorem AllRam.not_raisesReadOnly {s : State} (h : AllRam s) (addr : Addr) : ¬ raisesReadOnly s.cfg addr := by
  have hram : (locate s.cfg addr).isRam = true := h addr
  rintro (⟨k, hl⟩ | ⟨hl, -⟩) <;> simp [hl, Place.isRam] at hram

/-- Where every address names RAM the Bus stops nothing. -/
theorem AllRam.not_busStop {s : State} (h : AllRam s) (e : Stop) : ¬ BusStop s e := by
  cases e with
  | fault f =>
    cases f with
    | fatal reason bus =>
      rintro ⟨⟨addr, -, hu⟩ | ⟨addr, -, hr⟩, -⟩
      · exact h.not_raisesUnmapped addr hu
      · exact h.not_raisesReadOnly addr hr
  | refused r =>
    rintro ⟨addr, -, hl, -⟩
    have hram : (locate s.cfg addr).isRam = true := h addr
    simp [hl, Place.isRam] at hram

/-- A runnable instruction has no stop of its own. -/
theorem not_ownStop_of_runnable {i : Instr} {s : State} (h : runnable i s = true) (e : Stop) :
    ¬ OwnStop i.mnemonic s e := by
  rintro (⟨-, hmn, hwdm⟩ | ⟨-, hmn, hrefuse, hd⟩)
  · simp [runnable, hmn, hwdm] at h
  · simp only [List.mem_cons, List.not_mem_nil, or_false] at hmn
    rcases hmn with hmn | hmn <;> simp [runnable, hmn, hrefuse, hd] at h

/-- `runnable` reads the parameters and the flags only. -/
theorem runnable_congr (i : Instr) {s t : State} (hcfg : t.cfg = s.cfg) (hp : t.p = s.p) :
    runnable i t = runnable i s := by
  simp only [runnable, hcfg, hp]

/-- An answer that is no stop's is a next state. -/
theorem next_of_no_stop {o : Answer} (h : ∀ e : Stop, o ≠ e.answer) : ∃ t, o = .next t := by
  cases o with
  | next t => exact ⟨t, rfl⟩
  | fault f => exact absurd rfl (h (.fault f))
  | refused r => exact absurd rfl (h (.refused r))

theorem AllRam.exec_completes {i : Instr} {s : State} (h : AllRam s) (hrun : runnable i s = true) :
    ∃ t, exec i s = .next t :=
  next_of_no_stop fun e he => (exec_stops i s e he).elim (h.not_busStop e) (not_ownStop_of_runnable hrun e)

theorem AllRam.step_completes {s : State} (h : AllRam s)
    (hrunnable : s.run = .running → ∀ i u, fetchInstr s = .ok (i, u) → runnable i s = true) :
    ∃ t, step s = .next t := by
  by_cases hr : s.run = .running
  · rcases step_of_running hr with ⟨i, u, hf, hs⟩ | ⟨e, hf, -⟩
    · have hframe := fetchInstr_frame hf
      have hcfg : u.cfg = s.cfg := by rw [hframe]
      have hp : u.p = s.p := by rw [hframe]
      rw [hs]
      exact (h.of_cfg hcfg).exec_completes ((runnable_congr i hcfg hp).trans (hrunnable hr i u hf))
    · exact absurd ((fetchInstr_stops s).1 e hf) (h.not_busStop e)
  · exact ⟨s, step_of_not_running hr⟩

/-- Settles O60: an instruction stops as the Bus does or by a stop of its own (`exec_stops`), and neither can occur. -/
theorem everyInstructionCompletesOnRam : Obligations.EveryInstructionCompletesOnRam :=
  ⟨fun _ _ h hrun => h.exec_completes hrun, fun _ h hrunnable => h.step_completes hrunnable⟩

end Sys2Proof.Machine
end

section
/-! SUPPORT. The encoding (`30_encoding.md`): decoding and encoding are inverse, every opcode decodes, and a step in
Running executes the instruction its bytes encode. What a row of the opcode table makes of operand bytes is a relation; the
table is compared with the opcodes and operands of the instructions once, through it, and `decode_eq_ok_iff` follows. -/

namespace Sys2Proof

open Sys2Proof.Machine

/-! ## What a row of the table makes (R74, R75) -/

/-- Row `row` makes instruction `i` of the operand bytes `bytes`, and `i` is well-formed where `wf` is true. -/
inductive Row.Makes (c : DecodeContext) : Row → List Byte → Bool → Instr → Prop
  | none (i : Instr) : Makes c (.none i) [] true i
  | byte (mk : Byte → Instr) (b : Byte) : Makes c (.byte mk) [b] true (mk b)
  | word (mk : Word → Instr) (v : Word) : Makes c (.word mk) (wordBytes v) true (mk v)
  | long (mk : Addr → Instr) (a : Addr) : Makes c (.long mk) (addrBytes a) true (mk a)
  | immM (mk : Imm → Instr) (k : Imm) : Makes c (.immM mk) k.bytes (k.width == widthOf c.m8) (mk k)
  | immX (mk : Imm → Instr) (k : Imm) : Makes c (.immX mk) k.bytes (k.width == widthOf c.x8) (mk k)
  | banks (mk : Byte → Byte → Instr) (b0 b1 : Byte) : Makes c (.banks mk) [b0, b1] true (mk b0 b1)
  | wdm (mk : Option Byte → Instr) (signature : Option Byte) :
      Makes c (.wdm mk) signature.toList (signature.isSome == c.wdmSignature) (mk signature)

/-- The row of an instruction's opcode makes it of its operand bytes. -/
theorem rowOf_opcode_makes (c : DecodeContext) (i : Instr) :
    (rowOf i.opcode).Makes c i.operand.bytes (WellFormed c i) i := by
  cases i <;> constructor

/-- The row of an opcode makes instructions of that opcode only, of their own operand bytes. -/
theorem opcode_of_rowOf_makes (op : Byte) : ∀ {c : DecodeContext} {bytes : List Byte} {wf : Bool} {i : Instr},
    (rowOf op).Makes c bytes wf i → i.opcode = op ∧ i.operand.bytes = bytes ∧ WellFormed c i = wf := by
  induction op using forall_byte with
  | _ n => fin_cases n <;> (intro c bytes wf i h; cases h; exact ⟨rfl, rfl, rfl⟩)

/-- A row has as many operand bytes as the instructions it makes. -/
theorem Row.Makes.length {c : DecodeContext} {row : Row} {bytes : List Byte} {wf : Bool} {i : Instr}
    (h : row.Makes c bytes wf i) (hwf : wf = true) : row.length c = bytes.length := by
  cases h with
  | immM mk k => exact Laws.RowLength.imm_length k c.m8 hwf
  | immX mk k => exact Laws.RowLength.imm_length k c.x8 hwf
  | wdm mk signature => exact Laws.RowLength.wdm_length signature c.wdmSignature hwf
  | _ => rfl

/-- A row reads back the operand bytes it makes a well-formed instruction of. -/
theorem Row.Makes.build {c : DecodeContext} {row : Row} {bytes : List Byte} {wf : Bool} {i : Instr}
    (h : row.Makes c bytes wf i) (hwf : wf = true) (op : Byte) (rest : List Byte) :
    row.build c op (bytes ++ rest) = .ok (i, rest) := by
  cases h with
  | word mk v => exact build_word c op mk v rest
  | long mk a => exact build_long c op mk a rest
  | immM mk k => exact takeImm_bytes op mk k rest c.m8 hwf
  | immX mk k => exact takeImm_bytes op mk k rest c.x8 hwf
  | wdm mk signature =>
    simp only [beq_iff_eq] at hwf
    cases signature <;> simp [Row.build, ← hwf]
  | _ => rfl

/-- An immediate constant that is read has the width in force, and its bytes are those read. -/
theorem takeImm_ok {narrow : Bool} {mk : Imm → Instr} {op : Byte} {bytes rest : List Byte} {i : Instr}
    (h : takeImm narrow mk op bytes = .ok (i, rest)) :
    ∃ k : Imm, i = mk k ∧ (k.width == widthOf narrow) = true ∧ k.bytes ++ rest = bytes := by
  cases narrow <;> rcases bytes with _ | ⟨b0, _ | ⟨b1, bytes⟩⟩ <;> cases h
  · exact ⟨.word (mkWord b1 b0), rfl, rfl, by simp [Imm.bytes, wordBytes]⟩
  · exact ⟨.byte b0, rfl, rfl, rfl⟩
  · exact ⟨.byte b0, rfl, rfl, rfl⟩

/-- What a row reads is a well-formed instruction it makes, and the bytes after it. -/
theorem Row.makes_of_build {c : DecodeContext} {op : Byte} {row : Row} {bytes rest : List Byte} {i : Instr}
    (h : row.build c op bytes = .ok (i, rest)) : ∃ used, row.Makes c used true i ∧ used ++ rest = bytes := by
  cases row with
  | none j => cases h; exact ⟨_, .none i, rfl⟩
  | byte mk =>
    rcases bytes with _ | ⟨b0, bytes⟩ <;> cases h
    exact ⟨_, .byte mk b0, rfl⟩
  | word mk =>
    rcases bytes with _ | ⟨b0, _ | ⟨b1, bytes⟩⟩ <;> cases h
    exact ⟨_, .word mk _, by simp [wordBytes]⟩
  | long mk =>
    rcases bytes with _ | ⟨b0, _ | ⟨b1, _ | ⟨b2, bytes⟩⟩⟩ <;> cases h
    exact ⟨_, .long mk _, by simp [addrBytes]⟩
  | immM mk =>
    obtain ⟨k, rfl, hk, hbytes⟩ := takeImm_ok h
    exact ⟨_, hk ▸ .immM mk k, hbytes⟩
  | immX mk =>
    obtain ⟨k, rfl, hk, hbytes⟩ := takeImm_ok h
    exact ⟨_, hk ▸ .immX mk k, hbytes⟩
  | banks mk =>
    rcases bytes with _ | ⟨b0, _ | ⟨b1, bytes⟩⟩ <;> cases h
    exact ⟨_, .banks mk b0 b1, rfl⟩
  | wdm mk =>
    obtain ⟨m8, x8, signed⟩ := c
    cases signed with
    | false => cases h; exact ⟨_, .wdm mk Option.none, rfl⟩
    | true =>
      rcases bytes with _ | ⟨b0, bytes⟩ <;> cases h
      exact ⟨_, .wdm mk (some b0), rfl⟩

/-! ## Decoding and encoding (R70, R73) -/

/-- Bytes decode to exactly the well-formed instruction they start with the encoding of. -/
theorem decode_eq_ok_iff {c : DecodeContext} {bytes rest : List Byte} {i : Instr} :
    decode c bytes = .ok (i, rest) ↔ WellFormed c i = true ∧ encode i ++ rest = bytes := by
  constructor
  · intro h
    cases bytes with
    | nil => cases h
    | cons op bytes =>
      obtain ⟨used, hmakes, rfl⟩ := Row.makes_of_build h
      obtain ⟨rfl, rfl, hwf⟩ := opcode_of_rowOf_makes op hmakes
      exact ⟨hwf, rfl⟩
  · rintro ⟨hwf, rfl⟩
    exact (rowOf_opcode_makes c i).build hwf i.opcode rest

/-- Bytes after a decoded instruction are left over. -/
theorem decode_append {c : DecodeContext} {bytes rest : List Byte} {i : Instr} (h : decode c bytes = .ok (i, rest))
    (more : List Byte) : decode c (bytes ++ more) = .ok (i, rest ++ more) := by
  obtain ⟨hwf, rfl⟩ := decode_eq_ok_iff.mp h
  exact decode_eq_ok_iff.mpr ⟨hwf, (List.append_assoc ..).symm⟩

/-- The instruction decoded has the opcode read. -/
theorem opcode_of_decode {c : DecodeContext} {op : Byte} {bytes rest : List Byte} {i : Instr}
    (h : decode c (op :: bytes) = .ok (i, rest)) : i.opcode = op :=
  (List.cons.inj (decode_eq_ok_iff.mp h).2).1

theorem Row.length_le_three (c : DecodeContext) (row : Row) : row.length c ≤ 3 := by
  cases row with
  | immM mk | immX mk | wdm mk => simp only [Row.length, immLength]; split <;> decide
  | _ => simp only [Row.length, Nat.reduceLeDiff]

/-- Settles O1: one direction of `decode_eq_ok_iff`. -/
theorem decodeAfterEncodeIsIdentity : Obligations.DecodeAfterEncodeIsIdentity :=
  fun _ _ _ hwf => decode_eq_ok_iff.mpr ⟨hwf, rfl⟩

/-- Settles O2: the other direction. -/
theorem encodeAfterDecodeIsIdentity : Obligations.EncodeAfterDecodeIsIdentity :=
  fun _ _ _ _ => decode_eq_ok_iff.mp

/-- Settles O4: as many of the three bytes as the opcode's row has decode, and the others are left over. -/
theorem everyOpcodeDecodes : Obligations.EveryOpcodeDecodes := by
  intro c op b1 b2 b3 rest
  let n := (rowOf op).length c
  have hlength : ([b1, b2, b3].take n).length = n := List.length_take_of_le (Row.length_le_three c _)
  obtain ⟨i, left, h⟩ := decode_of_length c op _ hlength
  have hsplit : op :: [b1, b2, b3].take n ++ ([b1, b2, b3].drop n ++ rest) = op :: b1 :: b2 :: b3 :: rest := by
    rw [List.cons_append, ← List.append_assoc, List.take_append_drop]
    rfl
  exact ⟨i, _, hsplit ▸ decode_append h _, opcode_of_decode h⟩

/-! ## The table and the lengths (R74, R75, R77, R78) -/

/-- The well-formed operands: what `WellFormed` asks of an instruction, it asks of the operand. -/
def Operand.wellFormed (c : DecodeContext) : Operand → Bool
  | .data (.immM k) => k.width == widthOf c.m8
  | .data (.immX k) => k.width == widthOf c.x8
  | .wdm signature => signature.isSome == c.wdmSignature
  | _ => true

theorem wellFormed_eq_operand_wellFormed (c : DecodeContext) (i : Instr) :
    WellFormed c i = i.operand.wellFormed c := by
  cases i <;> rfl

/-- Settles O5: by the forms of an operand, whose widths `WellFormed` fixes. -/
theorem instructionLengthFollowsMode : Obligations.InstructionLengthFollowsMode := by
  intro c i hwf
  rw [wellFormed_eq_operand_wellFormed] at hwf
  rw [encode, List.length_cons, Nat.add_comm]
  congr 1
  generalize i.operand = o at hwf
  cases o with
  | data d =>
    cases d with
    | immM k => exact (Laws.RowLength.imm_length k c.m8 hwf).symm
    | immX k => exact (Laws.RowLength.imm_length k c.x8 hwf).symm
    | mem m => cases m <;> rfl
  | target t => cases t <;> rfl
  | wdm signature => exact (Laws.RowLength.wdm_length signature c.wdmSignature hwf).symm
  | _ => rfl

/-- Settles O3: for each of the 256 instructions, the cell at its opcode. -/
theorem opcodeMapIsTheTable : Obligations.OpcodeMapIsTheTable := by
  intro i
  cases i <;> rfl

/-- Settles O6: each word is the encoding of a well-formed instruction (`decode_eq_ok_iff`). -/
theorem sampleWordsDecode : Obligations.SampleWordsDecode := by
  unfold Obligations.SampleWordsDecode
  simp only [decode_eq_ok_iff]
  decide

/-! ## The step (R71 to R73) -/

/-- The bytes of a well-formed instruction at `PB:PC`, wrapping inside the bank, are fetched as that instruction. -/
theorem fetchInstr_of_peek {s : State} {i : Instr} (hwf : WellFormed s.decodeContext i = true)
    (hpeek : ∀ (k : Nat) (h : k < (encode i).length),
      peek s (mkAddr s.pb (s.pc + BitVec.ofNat 16 k)) = some ((encode i)[k])) :
    fetchInstr s = .ok (i, { s with pc := s.pc + BitVec.ofNat 16 (encode i).length }) := by
  have hopcode : fetchByte s = .ok (i.opcode, { s with pc := s.pc + 1 }) := by
    have h0 : peek s (mkAddr s.pb s.pc) = some i.opcode := by simpa [encode] using hpeek 0 (by simp [encode])
    simp only [fetchByte, readByte_of_peek h0, ok_bind, pure_eq_ok]
  have hoperand : fetchBytes i.operand.bytes.length { s with pc := s.pc + 1 } =
      .ok (i.operand.bytes, { s with pc := s.pc + BitVec.ofNat 16 (encode i).length }) := by
    have h := fetchBytes_of_peek s i.operand.bytes 1 fun k hk => by
      simpa [encode, Nat.add_comm 1 k] using hpeek (k + 1) (by simpa [encode] using hk)
    rwa [Nat.add_comm 1 i.operand.bytes.length] at h
  have hlength := (rowOf_opcode_makes s.decodeContext i).length hwf
  have hdecode : decode s.decodeContext (i.opcode :: i.operand.bytes) = .ok (i, []) :=
    decode_eq_ok_iff.mpr ⟨hwf, List.append_nil _⟩
  have hcontext : { s with pc := s.pc + 1 }.decodeContext = s.decodeContext := rfl
  simp only [fetchInstr, hopcode, ok_bind, hcontext, hlength, hoperand, hdecode, pure_eq_ok]

/-- Settles O7: the fetch reads the instruction (`fetchInstr_of_peek`), and a step in Running executes what it reads. -/
theorem stepRunsDecodedInstruction : Obligations.StepRunsDecodedInstruction := by
  intro s i hrun hwf hpeek
  simp only [step, hrun, fetchInstr_of_peek hwf hpeek]

end Sys2Proof
end

section
/-! SUPPORT. The addressing modes (`40_addressing_modes.md` R90 to R116): effective addresses as numbers, the pointers
they are read through, and what a load reads. -/

namespace Sys2Proof.Machine

open Sys2Proof

/-! ## Addresses as numbers -/

/-- An index is added to the 24-bit base, with carry into the bank (R97). -/
theorem toNat_add_zextWord (base : Addr) (v : Word) :
    (base + zextWord v).toNat = (base.toNat + v.toNat) % 16777216 := by
  rw [BitVec.toNat_add, toNat_zextWord]

theorem toNat_add_xV (s : State) (base : Addr) :
    (base + zextWord s.xV).toNat = (base.toNat + s.xNat) % 16777216 := by
  rw [toNat_add_zextWord, toNat_xV]

theorem toNat_add_yV (s : State) (base : Addr) :
    (base + zextWord s.yV).toNat = (base.toNat + s.yNat) % 16777216 := by
  rw [toNat_add_zextWord, toNat_yV]

/-- Data of the data bank, indexed by `Y` (R99, R106, R116). -/
theorem toNat_mkAddr_add_yV (s : State) (p : Word) :
    (mkAddr s.db p + zextWord s.yV).toNat = (s.db.toNat * 65536 + p.toNat + s.yNat) % 16777216 := by
  rw [toNat_add_yV, toNat_mkAddr]

/-- A location in bank 0 is numbered by its offset. -/
theorem toNat_bank0 (off : Word) : (bank0 off).toNat = off.toNat := by
  simp [bank0, toNat_mkAddr]

/-- A stack-relative location wraps inside bank 0 (R115). -/
theorem toNat_srAddr (s : State) (d : Byte) : (srAddr s d).toNat = (s.sp.toNat + d.toNat) % 65536 := by
  rw [srAddr, toNat_bank0, BitVec.toNat_add, toNat_zextByte]

/-- Settles O18: these modes read nothing, and each address is one of the sums above. -/
theorem effectiveAddressesWithoutPointer : Obligations.EffectiveAddressesWithoutPointer := by
  intro s
  refine ⟨fun a => ⟨_, rfl, toNat_mkAddr s.db a⟩, fun a => ⟨_, rfl, ?_⟩,
    fun a => ⟨_, rfl, toNat_mkAddr_add_yV s a⟩, fun _ => rfl,
    fun al => ⟨_, rfl, toNat_add_xV s al⟩, fun d => ⟨_, rfl, toNat_dpAddr s d 0⟩, fun d => ⟨_, rfl, ?_⟩,
    fun d => ⟨_, rfl, ?_⟩, fun d => ⟨_, rfl, toNat_srAddr s d⟩⟩
  · rw [toNat_add_xV, toNat_mkAddr]
  · rw [toNat_dpAddr, toNat_xV]
  · rw [toNat_dpAddr, toNat_yV]

/-! ## Through a stored pointer -/

section Pointer

variable {s : State} {d : Byte} {p : Word} {q : Addr}

/-- The direct-page location of a number. -/
theorem eq_dpAddr_of_toNat {addr : Addr} {idx : Word} (h : addr.toNat = s.dpNat d.toNat idx.toNat) :
    addr = dpAddr s d idx :=
  BitVec.eq_of_toNat_eq (h.trans (toNat_dpAddr s d idx).symm)

/-- The stack-relative location of a number. -/
theorem eq_srAddr_of_toNat {addr : Addr} (h : addr.toNat = (s.sp.toNat + d.toNat) % 65536) : addr = srAddr s d :=
  BitVec.eq_of_toNat_eq (h.trans (toNat_srAddr s d).symm)

theorem effAddr_dpi_of_storedWord (h : storedWord s (dpAddr s d 0) = some p) :
    effAddr (.dpi d) s = .ok (mkAddr s.db p, s) := by
  simp only [effAddr, readWord_of_storedWord h, ok_bind, pure_eq_ok]

theorem effAddr_diy_of_storedWord (h : storedWord s (dpAddr s d 0) = some p) :
    effAddr (.diy d) s = .ok (mkAddr s.db p + zextWord s.yV, s) := by
  simp only [effAddr, readWord_of_storedWord h, ok_bind, pure_eq_ok]

theorem effAddr_dxi_of_storedWord (h : storedWord s (dpAddr s d s.xV) = some p) :
    effAddr (.dxi d) s = .ok (mkAddr s.db p, s) := by
  simp only [effAddr, readWord_of_storedWord h, ok_bind, pure_eq_ok]

theorem effAddr_dil_of_storedLong (h : storedLong s (dpAddr s d 0) = some q) : effAddr (.dil d) s = .ok (q, s) :=
  readLong_of_storedLong h

theorem effAddr_dly_of_storedLong (h : storedLong s (dpAddr s d 0) = some q) :
    effAddr (.dly d) s = .ok (q + zextWord s.yV, s) := by
  simp only [effAddr, readLong_of_storedLong h, ok_bind, pure_eq_ok]

theorem effAddr_siy_of_storedWord (h : storedWord s (srAddr s d) = some p) :
    effAddr (.siy d) s = .ok (mkAddr s.db p + zextWord s.yV, s) := by
  simp only [effAddr, readWord_of_storedWord h, ok_bind, pure_eq_ok]

end Pointer

/-- Settles O19: the number says at which location the pointer lies; each mode reads it there. -/
theorem effectiveAddressesThroughPointer : Obligations.EffectiveAddressesThroughPointer := by
  intro s d at_ p q
  refine ⟨fun hat hp => ?_, fun hat hp => ?_, fun hat hq => ?_, fun hat hp => ?_⟩
  · obtain rfl : at_ = dpAddr s d 0 := eq_dpAddr_of_toNat hat
    exact ⟨⟨_, effAddr_dpi_of_storedWord hp, toNat_mkAddr s.db p⟩,
      _, effAddr_diy_of_storedWord hp, toNat_mkAddr_add_yV s p⟩
  · obtain rfl : at_ = dpAddr s d s.xV := eq_dpAddr_of_toNat (by rw [hat, toNat_xV])
    exact ⟨_, effAddr_dxi_of_storedWord hp, toNat_mkAddr s.db p⟩
  · obtain rfl : at_ = dpAddr s d 0 := eq_dpAddr_of_toNat hat
    exact ⟨effAddr_dil_of_storedLong hq, _, effAddr_dly_of_storedLong hq, toNat_add_yV s q⟩
  · obtain rfl : at_ = srAddr s d := eq_srAddr_of_toNat hat
    exact ⟨_, effAddr_siy_of_storedWord hp, toNat_mkAddr_add_yV s p⟩

/-! ## What a load reads (R91, R94) -/

/-- A constant of a width is a value of that width. -/
theorem truncW_imm_value (k : Imm) : truncW k.width k.value = k.value := by
  cases k with
  | byte b => exact truncW_zextByte b
  | word v => rfl

theorem readW_w8_of_peek {addr : Addr} {s : State} {b : Byte} (h : peek s addr = some b) :
    readW addr .w8 s = .ok (zextByte b, s) := by
  simp only [readW, readByte_of_peek h, ok_bind, pure_eq_ok]

theorem load_mem_of_effAddr {m : MemMode} {s t : State} {ea : Addr} (h : effAddr m s = .ok (ea, t)) (w : Width) :
    load (.mem m) w s = readW ea w t := by
  simp only [load, h, ok_bind]

/-- Settles O20: the constant as it is; in memory what is stored at the effective address. -/
theorem loadReadsOperand : Obligations.LoadReadsOperand := by
  intro s w k m
  refine ⟨?_, fun ea t b hea hb => ?_, fun ea t v hea hv => ?_⟩
  · rintro rfl
    simp only [load, truncW_imm_value, and_self]
  · rw [load_mem_of_effAddr hea, readW_w8_of_peek hb]
  · rw [load_mem_of_effAddr hea, readW, readWord_of_storedWord hv]

end Sys2Proof.Machine
end

section
/-! SUPPORT. The stack (`40_addressing_modes.md` R118 to R122): the four primitives, that a pull gives back what was
pushed, and the pull instructions (`44_stack.md` R238 to R243). -/

namespace Sys2Proof.Machine

open Sys2Proof

/-! ## The primitives -/

theorem push8_of_writeByte {b : Byte} {s t : State} (h : writeByte (bank0 s.sp) b s = .ok t) :
    push8 b s = .ok (t.writeS (s.sp - 1)) := by
  have hsp : t.sp = s.sp := by rw [writeByte_frame h]
  simp only [push8, h, ok_bind, pure_eq_ok, hsp]

theorem push16_of_push8 {v : Word} {s t : State} (h : push8 (highByte v) s = .ok t) :
    push16 v s = push8 (lowByte v) t := by
  simp only [push16, h, ok_bind]

theorem pull16_of_pull8 {lo hi : Byte} {s t u : State} (hlo : pull8 s = .ok (lo, t)) (hhi : pull8 t = .ok (hi, u)) :
    pull16 s = .ok (mkWord hi lo, u) := by
  simp only [pull16, hlo, hhi, ok_bind, pure_eq_ok]

theorem writeS_native {s : State} (h : s.e = false) (v : Word) : (s.writeS v).sp = v := by
  simp only [State.writeS, h, Bool.false_eq_true, if_false]

theorem pushSlot_one_native {s : State} (h : s.e = false) : pushSlot s 1 = s.sp - 1 := writeS_native h _

theorem pushSlot_two_native {s : State} (h : s.e = false) : pushSlot s 2 = s.sp - 2 := by
  rw [pushSlot, writeS_native h, pushSlot_one_native h, BitVec.sub_sub]
  rfl

/-! ## What was pushed is pulled -/

/-- The byte pushed last is pulled first, and `S` is back where it was before that push. -/
theorem Pushed.pull8 {s t : State} {bs : List Byte} {b : Byte} (P : Pushed s (bs ++ [b]) t)
    (hpage : s.stackPageOk = true) : Machine.pull8 t = .ok (b, { t with sp := pushSlot s bs.length }) := by
  have he : t.e = s.e := by rw [P.frame]
  have hsp : t.sp = pushSlot s (bs.length + 1) := by rw [P.frame, List.length_append, List.length_singleton]
  exact pull8_of_slot hpage _ b he hsp (by simpa using P.slot bs.length (by simp))

/-- A word pushed to RAM is pulled again, and `S` is restored. -/
theorem Pushed.pull16 {s t : State} {v : Word} (P : Pushed s [highByte v, lowByte v] t)
    (hpage : s.stackPageOk = true) : Machine.pull16 t = .ok (v, { t with sp := s.sp }) := by
  have he : t.e = s.e := by rw [P.frame]
  have hlo : Machine.pull8 t = .ok (lowByte v, { t with sp := pushSlot s 1 }) :=
    Pushed.pull8 (bs := [highByte v]) P hpage
  have hhi : Machine.pull8 { t with sp := pushSlot s 1 } = .ok (highByte v, { t with sp := s.sp }) :=
    pull8_of_slot hpage 0 _ he rfl (P.slot 0 (by simp))
  rw [pull16_of_pull8 hlo hhi, mkWord_high_low]

/-- Settles O40: each primitive by its definition; the round trips from what a chain of pushes leaves in its slots. -/
theorem pushThenPullRoundTrip : Obligations.PushThenPullRoundTrip := by
  intro s b v
  refine ⟨fun t h => push8_of_writeByte h, fun t h => h, fun t u ht hu => (push16_of_push8 ht).trans hu,
    fun lo hi t u hlo hhi => ⟨pull16_of_pull8 hlo hhi, toNat_mkWord hi lo⟩,
    fun he => ⟨pushSlot_one_native he, pushSlot_two_native he⟩, fun hw hpage hroom => ?_, fun hw hpage hroom => ?_⟩
  · obtain ⟨t, hpush, P⟩ := (Pushed.nil hw).snoc b 1 (by simp) hroom
    exact ⟨t, _, hpush, P.frame, P.slot 0 (by simp), Pushed.pull8 (bs := []) P hpage, rfl⟩
  · obtain ⟨t, hpush, P⟩ := (Pushed.nil hw).word v 2 (by simp) hroom
    exact ⟨t, _, hpush, P.frame, P.slot 0 (by simp), P.slot 1 (by simp), P.pull16 hpage, rfl⟩

/-! ## The pull instructions -/

/-- A pull leaves the registers it does not name, and with them the widths. -/
theorem PullOnly.registers {s t : State} (P : PullOnly s t) :
    t.a = s.a ∧ t.x = s.x ∧ t.y = s.y ∧ t.p = s.p ∧ t.wA = s.wA ∧ t.wX = s.wX := by
  rw [P.frame]
  exact ⟨rfl, rfl, rfl, rfl, rfl, rfl⟩

section Pull

variable {s t : State} {w : Width} {b : Byte} {v : Word}

theorem pullW_w8_of_pull8 (h : pull8 s = .ok (b, t)) : pullW .w8 s = .ok (zextByte b, t) := by
  simp only [pullW, h, ok_bind, pure_eq_ok]

theorem exec_pla_of_pullW (hw : s.wA = w) (h : pullW w s = .ok (v, t)) :
    exec .pla s = .next { t with a := mergeW w s.a v, p := (s.setNZ v w).p } := by
  subst hw
  obtain ⟨ha, -, -, hp, hwA, -⟩ := (pullW_pullOnly h).registers
  have hexec : exec .pla s = .next ((t.writeA v).setNZ v s.wA) :=
    finish_eq_next.mpr (by simp only [h, ok_bind, pure_eq_ok])
  rw [hexec, State.setNZ, State.writeA, hwA, ha, hp, State.setNZ_p]

theorem exec_plx_of_pullW (hw : s.wX = w) (h : pullW w s = .ok (v, t)) :
    exec .plx s = .next { t with x := mergeW w s.x v, p := (s.setNZ v w).p } := by
  subst hw
  obtain ⟨-, hx, -, hp, -, hwX⟩ := (pullW_pullOnly h).registers
  have hexec : exec .plx s = .next ((t.writeX v).setNZ v s.wX) :=
    finish_eq_next.mpr (by simp only [h, ok_bind, pure_eq_ok])
  rw [hexec, State.setNZ, State.writeX, hwX, hx, hp, State.setNZ_p]

theorem exec_ply_of_pullW (hw : s.wX = w) (h : pullW w s = .ok (v, t)) :
    exec .ply s = .next { t with y := mergeW w s.y v, p := (s.setNZ v w).p } := by
  subst hw
  obtain ⟨-, -, hy, hp, -, hwX⟩ := (pullW_pullOnly h).registers
  have hexec : exec .ply s = .next ((t.writeY v).setNZ v s.wX) :=
    finish_eq_next.mpr (by simp only [h, ok_bind, pure_eq_ok])
  rw [hexec, State.setNZ, State.writeY, hwX, hy, hp, State.setNZ_p]

theorem exec_plp_of_pull8 (h : pull8 s = .ok (b, t)) : exec .plp s = .next { t with p := Flags.ofByte b } :=
  finish_eq_next.mpr (by simp only [h, ok_bind, pure_eq_ok, State.setP])

theorem exec_plb_of_pull8 (h : pull8 s = .ok (b, t)) :
    exec .plb s = .next { t with db := b, p := (s.setNZ (zextByte b) .w8).p } := by
  obtain ⟨-, -, -, hp, -, -⟩ := (pull8_pullOnly h).registers
  exact finish_eq_next.mpr (by simp only [h, ok_bind, pure_eq_ok, State.setNZ, hp])

theorem exec_pld_of_pull16 (h : pull16 s = .ok (v, t)) :
    exec .pld s = .next { t with d := v, p := (s.setNZ v .w16).p } := by
  obtain ⟨-, -, -, hp, -, -⟩ := (pull16_pullOnly h).registers
  exact finish_eq_next.mpr (by simp only [h, ok_bind, pure_eq_ok, State.setNZ, hp])

end Pull

/-- `SetNZ` of a byte at width 8 (`10_state.md` R26). -/
theorem setNZ_zextByte_p (s : State) (b : Byte) :
    (s.setNZ (zextByte b) .w8).p = { s.p with n := b.getLsbD 7, z := b == 0 } := by
  have hn : topBit .w8 (zextByte b) = b.getLsbD 7 := by simp [topBit, zextByte]
  have hz : (zextByte b == 0) = (b == 0) := by
    rw [beq_eq_decide, beq_eq_decide, decide_eq_decide, ← BitVec.toNat_inj, ← BitVec.toNat_inj, toNat_zextByte]
    rfl
  rw [State.setNZ_p, truncW_zextByte, hn, hz]

/-- A byte written at width 8 goes below the high byte (`10_state.md` R24). -/
theorem mergeW_zextByte (old : Word) (b : Byte) : mergeW .w8 old (zextByte b) = mkWord (highByte old) b := by
  rw [mergeW, lowByte_zextByte]

theorem widthOf_w8 {narrow : Bool} (h : narrow = true) : widthOf narrow = .w8 := if_pos h

theorem widthOf_w16 {narrow : Bool} (h : narrow = false) : widthOf narrow = .w16 := if_neg (by simp [h])

/-- Settles O42: each instruction is its pull, then its register written at the width in force and `SetNZ`. -/
theorem pullInstructionsWriteRegister : Obligations.PullInstructionsWriteRegister := by
  intro s t b v
  refine ⟨fun h => ?_, fun h => ?_⟩
  · have hpull := pullW_w8_of_pull8 h
    rw [exec_plb_of_pull8 h, ← setNZ_zextByte_p, ← mergeW_zextByte, ← mergeW_zextByte, ← mergeW_zextByte]
    exact ⟨fun hw => exec_pla_of_pullW (widthOf_w8 hw) hpull, fun hw => exec_plx_of_pullW (widthOf_w8 hw) hpull,
      fun hw => exec_ply_of_pullW (widthOf_w8 hw) hpull, exec_plp_of_pull8 h, rfl⟩
  · exact ⟨fun hw => exec_pla_of_pullW (w := .w16) (widthOf_w16 hw) h,
      fun hw => exec_plx_of_pullW (w := .w16) (widthOf_w16 hw) h,
      fun hw => exec_ply_of_pullW (w := .w16) (widthOf_w16 hw) h, exec_pld_of_pull16 h⟩

end Sys2Proof.Machine
end

section
/-! SUPPORT. The frame of memory (`40_addressing_modes.md` R92, R118; `46_block_move.md` R280): which stored bytes an
instruction may change. Three kinds of instruction write: a store at an effective address, a chain of pushes, a block
move. -/

namespace Sys2Proof.Machine

open Sys2Proof

/-! ## What leaves stored bytes alone -/

/-- `t` has the parameters of `s`, and every stored byte but those of the first `n` push slots of `s`. -/
structure Spares (n : Nat) (s t : State) : Prop where
  cfg : t.cfg = s.cfg
  peek : ∀ b, (∀ k, k < n → apart s b (bank0 (pushSlot s k)) = true) → Machine.peek t b = Machine.peek s b

/-- `t` is reached from `s` by pushing `n` bytes and storing nothing else. -/
structure Pushes (n : Nat) (s t : State) : Prop extends Spares n s t where
  e : t.e = s.e
  sp : t.sp = pushSlot s n

/-- Registers and flags are no stored bytes. -/
theorem Spares.of_bus {s t : State} (hcfg : t.cfg = s.cfg) (hbus : t.bus = s.bus) : Spares 0 s t :=
  ⟨hcfg, fun b _ => by simp only [Machine.peek, hcfg, hbus]⟩

/-- Reads change the device state and the count of free values only. -/
theorem Spares.of_reads {s t : State}
    (h : t = { s with draws := t.draws, bus := { s.bus with device := t.bus.device } }) : Spares 0 s t := by
  rw [h]
  exact ⟨rfl, fun _ _ => rfl⟩

theorem Spares.of_pullOnly {s t : State} (h : PullOnly s t) : Spares 0 s t := by
  rw [h.frame]
  exact ⟨rfl, fun _ _ => rfl⟩

theorem Spares.trans {s t u : State} (h : Spares 0 s t) (h' : Spares 0 t u) : Spares 0 s u :=
  ⟨h'.cfg.trans h.cfg, fun b _ => (h'.peek b (by simp)).trans (h.peek b (by simp))⟩

/-- Then registers and flags alone change. -/
theorem Spares.then_registers {n : Nat} {s t u : State} (h : Spares n s t) (hcfg : u.cfg = t.cfg)
    (hbus : u.bus = t.bus) : Spares n s u :=
  ⟨hcfg.trans h.cfg, fun b hb => by
    rw [← h.peek b hb]
    exact (Spares.of_bus hcfg hbus).peek b (by simp)⟩

/-- The slots of a state are found from `E` and `S`. -/
theorem pushSlot_of_sp {s t : State} {m : Nat} (he : t.e = s.e) (hsp : t.sp = pushSlot s m) (k : Nat) :
    pushSlot t k = pushSlot s (m + k) := by
  induction k with
  | zero => exact hsp
  | succ k ih =>
    rw [← Nat.add_assoc]
    simp only [pushSlot, State.writeS, ih, he]

/-- After `m` pushes the next slots are those from the `m`-th on. -/
theorem Pushes.then {m n : Nat} {s t u : State} (h : Pushes m s t) (h' : Spares n t u) : Spares (m + n) s u := by
  refine ⟨h'.cfg.trans h.cfg, fun b hb => ?_⟩
  have hlater : ∀ k, k < n → apart t b (bank0 (pushSlot t k)) = true := fun k hk => by
    rw [apart_of_cfg h.cfg, pushSlot_of_sp h.e h.sp]
    exact hb (m + k) (by omega)
  rw [h'.peek b hlater, h.peek b fun k hk => hb k (by omega)]

theorem Pushes.trans {m n : Nat} {s t u : State} (h : Pushes m s t) (h' : Pushes n t u) : Pushes (m + n) s u :=
  ⟨h.then h'.toSpares, h'.e.trans h.e, h'.sp.trans (pushSlot_of_sp h.e h.sp n)⟩

theorem Pushes.refl (s : State) : Pushes 0 s s := ⟨.of_bus rfl rfl, rfl, rfl⟩

theorem Pushes.of_reads {s t : State}
    (h : t = { s with draws := t.draws, bus := { s.bus with device := t.bus.device } }) : Pushes 0 s t :=
  ⟨.of_reads h, by rw [h], by rw [h]; rfl⟩

theorem push8_pushes {v : Byte} {s t : State} (h : push8 v s = .ok t) : Pushes 1 s t := by
  obtain ⟨u, hwrite, rfl⟩ := push8_ok h
  have hframe := writeByte_frame hwrite
  have hcfg : u.cfg = s.cfg := by rw [hframe]
  have he : u.e = s.e := by rw [hframe]
  have hsp : u.sp = s.sp := by rw [hframe]
  refine ⟨⟨hcfg, fun b hb => ?_⟩, he, ?_⟩
  · have hslot : apart s b (bank0 s.sp) = true := hb 0 (by simp)
    exact writeByte_peek_other (t := u) hwrite hslot
  · simp only [State.writeS, pushSlot, he, hsp]

theorem push16_pushes {v : Word} {s t : State} (h : push16 v s = .ok t) : Pushes 2 s t := by
  obtain ⟨u, hhi, hlo⟩ := push16_ok h
  exact (push8_pushes hhi).trans (push8_pushes hlo)

theorem pushW_pushes {w : Width} {v : Word} {s t : State} (h : pushW w v s = .ok t) : Pushes (bytesAt w) s t := by
  cases w with
  | w8 => exact push8_pushes h
  | w16 => exact push16_pushes h

/-- An entry pushes the bank in Native mode only (`60_exceptions.md` R305). -/
theorem pushBank_pushes {s t : State} (h : pushBank s = .ok t) : Pushes (if s.e then 0 else 1) s t := by
  unfold pushBank at h
  split at h <;> rename_i he <;> simp only [he, if_true, if_false, Bool.false_eq_true]
  · cases h
    exact .refl s
  · exact push8_pushes h

theorem interruptEntry_spares {kind : InterruptKind} {retpc : Word} {s t : State}
    (h : interruptEntry kind retpc s = .ok t) : Spares (if s.e then 3 else 4) s t := by
  obtain ⟨s1, s2, s3, s4, v, hbank, hpc, hstatus, hvector, rfl⟩ := interruptEntry_ok h
  have hpushes := ((pushBank_pushes hbank).trans (push16_pushes hpc)).trans (push8_pushes hstatus)
  have hread : Spares 0 s3 { s4 with pc := v } := by
    refine (Spares.of_bus (s := s3) (t := s3.enterHandler) rfl rfl).trans ?_
    exact Spares.then_registers (.of_reads (readWord_frame hvector)) rfl rfl
  have hcount : (if s.e then 0 else 1) + 2 + 1 + 0 = if s.e then 3 else 4 := by split <;> rfl
  exact hcount ▸ hpushes.then hread

theorem interruptReturn_spares {s t : State} (h : interruptReturn s = .ok t) : Spares 0 s t := by
  rw [(interruptReturn_returnOnly h).frame]
  exact ⟨rfl, fun _ _ => rfl⟩

/-! ## Instructions that store nothing, or push -/

/-- An operation that answers a value, then an update of registers and flags by it. -/
theorem Spares.of_finish {α : Type} {n : Nat} {s t : State} {m : Except Stop (α × State)} {f : α × State → State}
    (h : finish (m >>= fun x => .ok (f x)) = .next t) (hm : ∀ x, m = .ok x → Spares n s x.2)
    (hcfg : ∀ x, (f x).cfg = x.2.cfg) (hbus : ∀ x, (f x).bus = x.2.bus) : Spares n s t := by
  obtain ⟨x, hx, hfx⟩ := bind_eq_ok.mp (ok_of_finish h)
  cases hfx
  exact (hm x hx).then_registers (hcfg x) (hbus x)

theorem branch_spares {c : Bool} {disp : Byte} {s t : State} (h : branch c disp s = .next t) : Spares 0 s t := by
  cases h
  split <;> exact .of_bus rfl rfl

/-- An instruction that neither stores at an effective address nor moves a block changes the bytes it pushes only. -/
theorem exec_spares (i : Instr) (s t : State) (h : exec i s = .next t)
    (hstore : (∀ m, i.operand ≠ .data (.mem m)) ∨ storedWidth i s = none) (hmove : i.mnemonic ∉ [.mvn, .mvp]) :
    Spares (pushedBytes i s) s t := by
  have ho := operand_of_mnemonic i
  rw [exec_eq_form] at h
  unfold storedWidth at hstore
  unfold pushedBytes
  generalize i.operand = o at *
  generalize i.mnemonic = mn at *
  cases mn <;> simp only [execForm] at h <;> simp only at ho hstore ⊢
  case lda | ldx | ldy | cmp | cpx | cpy | and | ora | eor =>
    all_goals
      obtain ⟨d, rfl⟩ := ho
      exact .of_finish h (fun _ hload => .of_reads (load_frame hload)) (fun _ => rfl) (fun _ => rfl)
  case adc | sbc =>
    all_goals
      obtain ⟨d, rfl⟩ := ho
      obtain ⟨_, -, h⟩ := bind_eq_ok.mp (ok_of_finish h)
      obtain ⟨⟨v, u⟩, hload, h⟩ := bind_eq_ok.mp h
      cases h
      exact (Spares.of_reads (load_frame hload)).then_registers rfl rfl
  case bit =>
    obtain ⟨d, rfl⟩ := ho
    obtain ⟨⟨v, u⟩, hload, h⟩ := bind_eq_ok.mp (ok_of_finish h)
    have hread := Spares.of_reads (load_frame hload)
    cases d <;> cases h <;> exact hread.then_registers rfl rfl
  case sta | stx | sty | stz | tsb | trb =>
    all_goals
      obtain ⟨m, rfl⟩ := ho
      simp at hstore
  case inc | dec | asl | lsr | rol | ror =>
    all_goals
      rcases ho with rfl | ⟨m, rfl⟩
      · cases h
        exact .of_bus rfl rfl
      · simp at hstore
  case bpl | bmi | bvc | bvs | bcc | bcs | bne | beq | bra =>
    all_goals
      obtain ⟨d, rfl⟩ := ho
      exact branch_spares h
  case brl | rep | sep =>
    all_goals
      obtain ⟨d, rfl⟩ := ho
      cases h
      exact .of_bus rfl rfl
  case jmp | jml =>
    all_goals
      obtain ⟨d, rfl⟩ := ho
      exact .of_finish h (fun _ htarget => .of_reads (jumpTarget_frame htarget)) (fun _ => rfl) (fun _ => rfl)
  case jsr =>
    obtain ⟨d, rfl⟩ := ho
    obtain ⟨u, hpush, h⟩ := bind_eq_ok.mp (ok_of_finish h)
    obtain ⟨⟨ea, x⟩, htarget, h⟩ := bind_eq_ok.mp h
    cases h
    exact ((push16_pushes hpush).then (.of_reads (jumpTarget_frame htarget))).then_registers rfl rfl
  case jsl =>
    obtain ⟨d, rfl⟩ := ho
    obtain ⟨u, hbank, h⟩ := bind_eq_ok.mp (ok_of_finish h)
    obtain ⟨u', hpc, h⟩ := bind_eq_ok.mp h
    obtain ⟨⟨ea, x⟩, htarget, h⟩ := bind_eq_ok.mp h
    cases h
    have hpushes := (push8_pushes hbank).trans (push16_pushes hpc)
    exact (hpushes.then (.of_reads (jumpTarget_frame htarget))).then_registers rfl rfl
  case rtl =>
    obtain ⟨⟨v, u⟩, hpc, h⟩ := bind_eq_ok.mp (ok_of_finish h)
    obtain ⟨⟨bank, u'⟩, hbank, h⟩ := bind_eq_ok.mp h
    cases h
    have hpulled : Spares 0 s { u with pc := v + 1 } :=
      (Spares.of_pullOnly (pull16_pullOnly hpc)).then_registers rfl rfl
    exact (hpulled.trans (.of_pullOnly (pull8_pullOnly hbank))).then_registers rfl rfl
  case pha | phx | phy => all_goals exact (pushW_pushes (ok_of_finish h)).toSpares
  case php | phb | phk => all_goals exact (push8_pushes (ok_of_finish h)).toSpares
  case phd => exact (push16_pushes (ok_of_finish h)).toSpares
  case pea | per =>
    all_goals
      obtain ⟨d, rfl⟩ := ho
      exact (push16_pushes (ok_of_finish h)).toSpares
  case pei =>
    obtain ⟨d, rfl⟩ := ho
    obtain ⟨⟨v, u⟩, hread, h⟩ := bind_eq_ok.mp (ok_of_finish h)
    exact (Pushes.of_reads (readWord_frame hread)).then (push16_pushes h).toSpares
  case pla | plx | ply =>
    all_goals
      exact .of_finish h (fun _ hpull => .of_pullOnly (pullW_pullOnly hpull)) (fun _ => rfl) (fun _ => rfl)
  case plp | plb =>
    all_goals
      exact .of_finish h (fun _ hpull => .of_pullOnly (pull8_pullOnly hpull)) (fun _ => rfl) (fun _ => rfl)
  case pld | rts =>
    all_goals
      exact .of_finish h (fun _ hpull => .of_pullOnly (pull16_pullOnly hpull)) (fun _ => rfl) (fun _ => rfl)
  case xce =>
    cases h
    split <;> exact .of_bus rfl rfl
  case wdm =>
    obtain ⟨d, rfl⟩ := ho
    simp only [onWdm, execWdm] at h
    split at h <;> cases h
    exact .of_bus rfl rfl
  case mvn | mvp => all_goals simp at hmove
  case brk | cop =>
    all_goals
      obtain ⟨d, rfl⟩ := ho
      exact interruptEntry_spares (ok_of_finish h)
  case rti => exact interruptReturn_spares (ok_of_finish h)
  all_goals
    cases h
    exact .of_bus rfl rfl

/-! ## Instructions that store at an address -/

/-- `t` has every stored byte of `s` but the one or two of a datum at `ea`. -/
def Stores (ea : Addr) (w : Width) (s t : State) : Prop :=
  ∀ b, apart s b ea = true → (w = .w16 → apart s b (ea + 1) = true) → peek t b = peek s b

/-- One write at `ea`, with nothing else stored before or after it. -/
theorem Stores.of_writeW {ea : Addr} {w : Width} {v : Word} {s x y t : State} (hbefore : Spares 0 s x)
    (hwrite : writeW ea w v x = .ok y) (hafter : Spares 0 y t) : Stores ea w s t := by
  intro b hlo hhi
  have hapart := apart_of_cfg hbefore.cfg b
  rw [hafter.peek b (by simp), writeW_peek_other hwrite (by rw [hapart, hlo]) fun hw => by rw [hapart, hhi hw],
    hbefore.peek b (by simp)]

/-- A store, and a modification in memory, write at the one effective address they resolve (R92,
`42_arithmetic_logic.md` R185). -/
theorem exec_stores (i : Instr) (s t : State) (h : exec i s = .next t) {m : MemMode} {w : Width} {ea : Addr} {u : State}
    (hm : i.operand = .data (.mem m)) (hw : storedWidth i s = some w) (hea : effAddr m s = .ok (ea, u)) :
    Stores ea w s t := by
  have hresolved : Spares 0 s u := .of_reads (effAddr_frame hea)
  rw [exec_eq_form, hm] at h
  unfold storedWidth at hw
  generalize i.mnemonic = mn at *
  cases mn <;> simp only [execForm] at h <;> cases hw
  case sta | stx | sty | stz =>
    all_goals
      have hstore := ok_of_finish h
      simp only [store, hea, ok_bind] at hstore
      exact .of_writeW hresolved hstore (.of_bus rfl rfl)
  case tsb | trb =>
    all_goals
      simp only [onMem, opTsb, opTrb, testModify, hea, ok_bind] at h
      obtain ⟨⟨v, x⟩, hread, h⟩ := bind_eq_ok.mp (ok_of_finish h)
      obtain ⟨y, hwrite, h⟩ := bind_eq_ok.mp h
      cases h
      exact .of_writeW (hresolved.trans (.of_reads (readW_frame hread))) hwrite (.of_bus rfl rfl)
  case inc | dec | asl | lsr | rol | ror =>
    all_goals
      simp only [onModify, modifyMem, hea, ok_bind] at h
      obtain ⟨⟨v, x⟩, hread, h⟩ := bind_eq_ok.mp (ok_of_finish h)
      obtain ⟨y, hwrite, h⟩ := bind_eq_ok.mp h
      cases h
      exact .of_writeW (hresolved.trans (.of_reads (readW_frame hread))) hwrite (.of_bus rfl rfl)

/-! ## Block moves -/

/-- Only the two block moves have a pair of banks for operand. -/
theorem exec_of_blk {i : Instr} {dst src : Byte} (h : i.operand = .blk dst src) (s : State) :
    ∃ delta, exec i s = blockMove delta dst src s := by
  cases i <;> cases h <;> exact ⟨_, rfl⟩

theorem blockMove_stores {delta : Word} {dst src : Byte} {s t : State} (h : blockMove delta dst src s = .next t) :
    Stores (mkAddr dst s.yV) .w8 s t := by
  obtain ⟨⟨b, u⟩, hread, h⟩ := bind_eq_ok.mp (ok_of_finish h)
  obtain ⟨x, hwrite, h⟩ := bind_eq_ok.mp h
  have hyV : u.yV = s.yV := by rw [readByte_frame hread]; rfl
  have hwriteW : writeW (mkAddr dst s.yV) .w8 (zextByte b) u = .ok x := by
    rw [← hyV, writeW, lowByte_zextByte]
    exact hwrite
  refine .of_writeW (.of_reads (readByte_frame hread)) hwriteW ?_
  cases h
  split <;> exact .of_bus rfl rfl

/-- Settles O56: an instruction stores at its effective address, or moves a byte, or leaves all but what it pushes. -/
theorem onlyStoredBytesChange : Obligations.OnlyStoredBytesChange := by
  intro i s t h
  refine ⟨(exec_keeps i s t h).rom, fun m w ea u hm hw hea => exec_stores i s t h hm hw hea,
    fun hstore hmove => (exec_spares i s t h hstore hmove).peek, fun dst src hblk b hb => ?_⟩
  obtain ⟨delta, hexec⟩ := exec_of_blk hblk s
  exact blockMove_stores (hexec ▸ h) b hb nofun

end Sys2Proof.Machine
end

section
/-! SUPPORT. Loads, stores and transfers (`41_load_store_transfer.md` R131 to R150): a load or a store follows from what
its operand answers, and a transfer is a register write and `SetNZ`. -/

namespace Sys2Proof.Machine

open Sys2Proof

/-! ## Loads and stores -/

theorem exec_of_mnemonic_operand {i : Instr} {mn : Mnemonic} {o : Operand} (hm : i.mnemonic = mn) (ho : i.operand = o)
    (s : State) : exec i s = execForm mn o s := by
  rw [exec_eq_form, hm, ho]

section Load

variable {o : DataOperand} {s t : State} {v : Word}

theorem opLda_of_load (h : load o s.wA s = .ok (v, t)) : opLda o s = .next ((t.writeA v).setNZ v s.wA) :=
  finish_eq_next.mpr (bind_eq_ok.mpr ⟨_, h, rfl⟩)

theorem opLdx_of_load (h : load o s.wX s = .ok (v, t)) : opLdx o s = .next ((t.writeX v).setNZ v s.wX) :=
  finish_eq_next.mpr (bind_eq_ok.mpr ⟨_, h, rfl⟩)

theorem opLdy_of_load (h : load o s.wX s = .ok (v, t)) : opLdy o s = .next ((t.writeY v).setNZ v s.wX) :=
  finish_eq_next.mpr (bind_eq_ok.mpr ⟨_, h, rfl⟩)

end Load

/-- Settles O21: the instruction is the meaning of its mnemonic on its operand, whatever the form. -/
theorem loadsWriteRegisterAndFlags : Obligations.LoadsWriteRegisterAndFlags := by
  intro i o s t v ho
  exact ⟨fun hm h => (exec_of_mnemonic_operand hm ho s).trans (opLda_of_load h),
    fun hm h => (exec_of_mnemonic_operand hm ho s).trans (opLdx_of_load h),
    fun hm h => (exec_of_mnemonic_operand hm ho s).trans (opLdy_of_load h)⟩

/-- A store at a resolved address is the one write there (`40_addressing_modes.md` R92). -/
theorem finish_store_of_writeW {m : MemMode} {w : Width} {v : Word} {s u t : State} {ea : Addr}
    (hea : effAddr m s = .ok (ea, u)) (hwrite : writeW ea w v u = .ok t) : finish (store m w v s) = .next t :=
  finish_eq_next.mpr (bind_eq_ok.mpr ⟨_, hea, hwrite⟩)

/-- Settles O22: each of the four is a store of its value at its width, and a store is one write. -/
theorem storesWriteMemory : Obligations.StoresWriteMemory := by
  intro i m s u t ea ho hea
  refine ⟨?_, ?_, ?_, ?_⟩ <;>
    exact fun hm h => (exec_of_mnemonic_operand hm ho s).trans (finish_store_of_writeW hea h)

/-! ## Transfers -/

@[simp] theorem writeA_truncW (s : State) (v : Word) : s.writeA (truncW s.wA v) = s.writeA v := by
  rw [State.writeA, mergeW_truncW, State.writeA]

@[simp] theorem writeX_truncW (s : State) (v : Word) : s.writeX (truncW s.wX v) = s.writeX v := by
  rw [State.writeX, mergeW_truncW, State.writeX]

@[simp] theorem writeY_truncW (s : State) (v : Word) : s.writeY (truncW s.wX v) = s.writeY v := by
  rw [State.writeY, mergeW_truncW, State.writeY]

/-- Settles O23: a register write at a width reads the bits of that width alone, so the source may be given whole. -/
theorem transfersMoveAtDestinationWidth : Obligations.TransfersMoveAtDestinationWidth := by
  intro s
  rw [← writeX_truncW s s.a, ← writeY_truncW s s.a, ← writeA_truncW s s.xV, ← writeA_truncW s s.yV]
  exact ⟨rfl, rfl, rfl, rfl, rfl, rfl⟩

@[simp] theorem lowByte_truncW (w : Width) (v : Word) : lowByte (truncW w v) = lowByte v := by
  cases w with
  | w8 => exact lowByte_zextByte _
  | w16 => rfl

/-- `TSX` (R144): as the transfers between the general registers. -/
theorem exec_tsx (s : State) : exec .tsx s = .next ((s.writeX s.sp).setNZ s.sp s.wX) := by
  rw [← writeX_truncW, ← setNZ_truncW]
  rfl

/-- `TXS` (R145): in Emulation mode only the low byte of `X` is read. -/
theorem exec_txs (s : State) :
    exec .txs s = .next { s with sp := if s.e then mkWord 0x01 (lowByte s.x) else s.xV } := by
  rw [← lowByte_truncW s.wX s.x]
  rfl

/-- The sign of the high byte is bit 15 of the word. -/
theorem getLsbD_highByte_seven (v : Word) : (highByte v).getLsbD 7 = v.getLsbD 15 := by
  simp [highByte]

/-- `XBA` (R150): the new low byte, of which `SetNZ` is taken, is the old high byte. -/
theorem exec_xba (s : State) :
    exec .xba s = .next { s with a := mkWord (lowByte s.a) (highByte s.a),
                                 p := { s.p with n := s.a.getLsbD 15, z := highByte s.a == 0 } } := by
  rw [← getLsbD_highByte_seven, ← setNZ_zextByte_p]
  rfl

/-- Settles O24: the transfers at 16 bits are read from their definitions, the other three have their lemmas. -/
theorem stackTransfersAndExchange : Obligations.StackTransfersAndExchange := by
  intro s
  exact ⟨exec_tsx s, exec_txs s, rfl, rfl, rfl, rfl, exec_xba s⟩

end Sys2Proof.Machine
end

section
/-! SUPPORT. Arithmetic and logic (`42_arithmetic_logic.md` R161 to R185): the adder, the subtraction made of it, the
shifts and rotates as numbers, and each instruction from what its operand answers. -/

namespace Sys2Proof.Machine

open Sys2Proof

/-! ## The adder and the complement (R161) -/

theorem topBit_eq_getLsbD (w : Width) (v : Word) : topBit w v = v.getLsbD (bitsOf w - 1) := by
  cases w <;> rfl

theorem secondBit_eq_getLsbD (w : Width) (v : Word) : secondBit w v = v.getLsbD (bitsOf w - 2) := by
  cases w <;> rfl

theorem addW_lt (a m : Word) (c : Bool) (w : Width) : (addW a m c w).r.toNat < 2 ^ bitsOf w := by
  rw [toNat_addW]
  exact Nat.mod_lt _ (by positivity)

/-- The carry out of the sum (R161). -/
theorem addW_cy_iff (a m : Word) (c : Bool) (w : Width) :
    (addW a m c w).cy = true ↔ 2 ^ bitsOf w ≤ a.toNat + m.toNat + c.toNat :=
  decide_eq_true_iff

/-- The overflow by the signs (R161): equal signs in, the other sign out. -/
theorem addW_ov_iff_topBit (a m : Word) (c : Bool) (w : Width) :
    (addW a m c w).ov = true ↔ topBit w a = topBit w m ∧ topBit w (addW a m c w).r ≠ topBit w a := by
  simp [addW]

/-- The overflow as one bit of the words (R161). -/
theorem addW_ov_eq_getLsbD (a m : Word) (c : Bool) (w : Width) :
    (addW a m c w).ov = (~~~(a ^^^ m) &&& (a ^^^ (addW a m c w).r)).getLsbD (bitsOf w - 1) := by
  have hw : bitsOf w - 1 < 16 := by cases w <;> decide
  rw [Bool.eq_iff_iff, addW_ov_iff_topBit]
  simp only [topBit_eq_getLsbD, BitVec.getLsbD_and, BitVec.getLsbD_not, BitVec.getLsbD_xor, hw, decide_true,
    Bool.true_and]
  cases a.getLsbD (bitsOf w - 1) <;> cases m.getLsbD (bitsOf w - 1) <;> simp

/-- The overflow as a signed sum out of the width's range (R161). -/
theorem addW_ov_iff_signedAt {w : Width} {a m : Word} (c : Bool) (ha : a.toNat < 2 ^ bitsOf w)
    (hm : m.toNat < 2 ^ bitsOf w) :
    (addW a m c w).ov = true ↔
      signedAt w a + signedAt w m + (c.toNat : Int) < -2 ^ (bitsOf w - 1) ∨
      2 ^ (bitsOf w - 1) ≤ signedAt w a + signedAt w m + (c.toNat : Int) := by
  have hc := c.toNat_le
  rw [addW_ov_iff_topBit, topBit_eq_decide w a ha, topBit_eq_decide w m hm, topBit_eq_decide w _ (addW_lt a m c w),
    toNat_addW, ne_eq, decide_eq_decide, decide_eq_decide]
  unfold signedAt
  cases w <;> simp only [bitsOf] at ha hm ⊢ <;> omega

/-- Settles O25: the laws of the adder, the sign of a value being its bit `w - 1`. -/
theorem adderCarryAndSignedOverflow : Obligations.AdderCarryAndSignedOverflow := by
  intro w a m c ha hm
  refine ⟨toNat_addW a m c w, addW_cy_iff a m c w, ?_, addW_ov_eq_getLsbD a m c w, addW_ov_iff_signedAt c ha hm⟩
  simp only [← topBit_eq_getLsbD]
  exact addW_ov_iff_topBit a m c w

section Subtract

variable {w : Width} {a m : Word} {c : Bool}

/-- Adding the complement subtracts, less the borrow (R163). -/
theorem toNat_addW_notW (hm : m.toNat < 2 ^ bitsOf w) :
    (addW a (notW w m) c w).r.toNat = (a.toNat + 2 ^ bitsOf w - m.toNat - (1 - c.toNat)) % 2 ^ bitsOf w := by
  have hc := c.toNat_le
  rw [toNat_addW, toNat_notW w m hm]
  congr 1
  omega

/-- The carry says that no borrow occurred (R163). -/
theorem addW_notW_cy_iff (hm : m.toNat < 2 ^ bitsOf w) :
    (addW a (notW w m) c w).cy = true ↔ m.toNat + (1 - c.toNat) ≤ a.toNat := by
  have hc := c.toNat_le
  rw [addW_cy_iff, toNat_notW w m hm]
  omega

/-- The complement as a signed number. -/
theorem signedAt_notW (hm : m.toNat < 2 ^ bitsOf w) : signedAt w (notW w m) = -1 - signedAt w m := by
  unfold signedAt
  rw [toNat_notW w m hm]
  cases w <;> simp only [bitsOf] at hm ⊢ <;> omega

/-- The overflow of a subtraction: the signed difference is out of range (R163). -/
theorem addW_notW_ov_iff_signedAt (ha : a.toNat < 2 ^ bitsOf w) (hm : m.toNat < 2 ^ bitsOf w) :
    (addW a (notW w m) c w).ov = true ↔
      signedAt w a - signedAt w m - (1 - (c.toNat : Int)) < -2 ^ (bitsOf w - 1) ∨
      2 ^ (bitsOf w - 1) ≤ signedAt w a - signedAt w m - (1 - (c.toNat : Int)) := by
  have hn : (notW w m).toNat < 2 ^ bitsOf w := lt_of_truncW (truncW_truncW w _)
  have hdiff : signedAt w a + signedAt w (notW w m) + (c.toNat : Int) =
      signedAt w a - signedAt w m - (1 - (c.toNat : Int)) := by
    rw [signedAt_notW hm]
    ring
  rw [addW_ov_iff_signedAt c ha hn, hdiff]

end Subtract

/-! ## What a load leaves, for the instructions that begin with one -/

section Load

variable {o : DataOperand} {w : Width} {s t : State} {m : Word}

theorem load_aV (h : load o w s = .ok (m, t)) : t.aV = s.aV := by
  rw [load_frame h]
  rfl

theorem load_xV (h : load o w s = .ok (m, t)) : t.xV = s.xV := by
  rw [load_frame h]
  rfl

theorem load_yV (h : load o w s = .ok (m, t)) : t.yV = s.yV := by
  rw [load_frame h]
  rfl

theorem load_p (h : load o w s = .ok (m, t)) : t.p = s.p := by
  rw [load_frame h]

/-- A loaded value as a number. -/
theorem load_lt (h : load o w s = .ok (m, t)) : m.toNat < 2 ^ bitsOf w := lt_of_truncW (load_trunc h)

/-- An instruction that loads its operand first goes on with the value loaded. -/
theorem finish_of_load {k : Word × State → Except Stop State} {r : State} (h : load o w s = .ok (m, t))
    (hk : k (m, t) = .ok r) : finish (load o w s >>= k) = .next r :=
  finish_eq_next.mpr (bind_eq_ok.mpr ⟨_, h, hk⟩)

end Load

/-! ## `ADC` and `SBC` (R162, R163, R183) -/

theorem checkDecimal_of_allowed {s : State} (h : s.cfg.decimalArith = .binary ∨ s.p.d = false) :
    checkDecimal s = .ok () := by
  rcases h with h | h <;> simp [checkDecimal, h]

theorem checkDecimal_of_refuse {s : State} (hcfg : s.cfg.decimalArith = .refuse) (hd : s.p.d = true) :
    checkDecimal s = .error (.refused .decimalMode) :=
  if_pos ⟨hcfg, hd⟩

theorem opAdc_of_refuse {s : State} (hcfg : s.cfg.decimalArith = .refuse) (hd : s.p.d = true) (o : DataOperand) :
    opAdc o s = .refused .decimalMode := by
  simp only [opAdc, checkDecimal_of_refuse hcfg hd, error_bind]
  rfl

theorem opSbc_of_refuse {s : State} (hcfg : s.cfg.decimalArith = .refuse) (hd : s.p.d = true) (o : DataOperand) :
    opSbc o s = .refused .decimalMode := by
  simp only [opSbc, checkDecimal_of_refuse hcfg hd, error_bind]
  rfl

theorem writeSum_eq {s t : State} (hp : t.p = s.p) (q : Sum) (w : Width) :
    t.writeSum q w = (({ t with p := { s.p with c := q.cy, v := q.ov } }.setNZ q.r w).writeA q.r) := by
  rw [← hp]
  rfl

section Operand

variable {o : DataOperand} {s t : State} {m : Word}

theorem opAdc_of_load (hd : s.cfg.decimalArith = .binary ∨ s.p.d = false) (h : load o s.wA s = .ok (m, t)) :
    opAdc o s = .next (t.writeSum (addW s.aV m s.p.c s.wA) s.wA) := by
  rw [← load_aV h, ← load_p h, opAdc, checkDecimal_of_allowed hd]
  exact finish_of_load h rfl

theorem opSbc_of_load (hd : s.cfg.decimalArith = .binary ∨ s.p.d = false) (h : load o s.wA s = .ok (m, t)) :
    opSbc o s = .next (t.writeSum (addW s.aV (notW s.wA m) s.p.c s.wA) s.wA) := by
  rw [← load_aV h, ← load_p h, opSbc, checkDecimal_of_allowed hd]
  exact finish_of_load h rfl

end Operand

/-- Settles O26: the adder's answer is written back, or decimal mode is refused before the operand is read. -/
theorem adcAddsWithCarry : Obligations.AdcAddsWithCarry := by
  intro i o s t m hm ho
  rw [exec_of_mnemonic_operand hm ho]
  exact ⟨fun hd h => (opAdc_of_load hd h).trans (by rw [writeSum_eq (load_p h)]),
    fun hcfg hd => opAdc_of_refuse hcfg hd o⟩

/-- Settles O27: the sum with the complement, read as a subtraction. -/
theorem sbcSubtractsWithBorrow : Obligations.SbcSubtractsWithBorrow := by
  intro i o s t m hm ho
  rw [exec_of_mnemonic_operand hm ho]
  refine ⟨fun hd h => ?_, fun hcfg hd => opSbc_of_refuse hcfg hd o⟩
  exact ⟨_, _, _, toNat_addW_notW (load_lt h), addW_notW_cy_iff (load_lt h),
    addW_notW_ov_iff_signedAt (aV_lt s) (load_lt h), (opSbc_of_load hd h).trans (by rw [writeSum_eq (load_p h)])⟩

/-! ## The compares (R164 to R166) -/

/-- A difference without a borrow is zero at equality only. -/
theorem truncW_addW_notW_beq_zero {w : Width} {reg m : Word} (hreg : reg.toNat < 2 ^ bitsOf w)
    (hm : m.toNat < 2 ^ bitsOf w) :
    (truncW w (addW reg (notW w m) true w).r == 0) = decide (reg = m) := by
  rw [truncW_beq_zero, toNat_addW_notW hm, decide_eq_decide, ← BitVec.toNat_inj]
  cases w <;> simp only [bitsOf, Bool.toNat_true] at hreg hm ⊢ <;> omega

/-- The carry of a compare is the unsigned order, its zero equality, its negative the top bit of the difference. -/
theorem writeCompare_eq {w : Width} {reg m : Word} {s t : State} (hp : t.p = s.p) (hreg : reg.toNat < 2 ^ bitsOf w)
    (hm : m.toNat < 2 ^ bitsOf w) :
    t.writeCompare reg m w = { t with p := { s.p with
      c := decide (m.toNat ≤ reg.toNat)
      z := decide (reg = m)
      n := ((reg.toNat + 2 ^ bitsOf w - m.toNat) % 2 ^ bitsOf w).testBit (bitsOf w - 1) } } := by
  have hcy : (addW reg (notW w m) true w).cy = decide (m.toNat ≤ reg.toNat) := by
    rw [Bool.eq_iff_iff, addW_notW_cy_iff hm, decide_eq_true_iff]
    rfl
  have hn : topBit w (addW reg (notW w m) true w).r =
      ((reg.toNat + 2 ^ bitsOf w - m.toNat) % 2 ^ bitsOf w).testBit (bitsOf w - 1) := by
    rw [topBit_eq_getLsbD, BitVec.getLsbD, toNat_addW_notW hm]
    rfl
  rw [← hp, ← hcy, ← hn, ← truncW_addW_notW_beq_zero hreg hm]
  rfl

section Compare

variable {o : DataOperand} {s t : State} {m : Word}

theorem opCmp_of_load (h : load o s.wA s = .ok (m, t)) : opCmp o s = .next (t.writeCompare s.aV m s.wA) := by
  rw [← load_aV h]
  exact finish_of_load h rfl

theorem opCpx_of_load (h : load o s.wX s = .ok (m, t)) : opCpx o s = .next (t.writeCompare s.xV m s.wX) := by
  rw [← load_xV h]
  exact finish_of_load h rfl

theorem opCpy_of_load (h : load o s.wX s = .ok (m, t)) : opCpy o s = .next (t.writeCompare s.yV m s.wX) := by
  rw [← load_yV h]
  exact finish_of_load h rfl

end Compare

/-- Settles O28: each compares its register, a value of its width, with the loaded one. -/
theorem comparesOrderUnsigned : Obligations.ComparesOrderUnsigned := by
  intro i o s t m reg w ho hcase h
  obtain ⟨hm, rfl, rfl⟩ | ⟨hm, rfl, rfl⟩ | ⟨hm, rfl, rfl⟩ := hcase <;> rw [exec_of_mnemonic_operand hm ho]
  · rw [← writeCompare_eq (load_p h) (aV_lt s) (load_lt h)]
    exact opCmp_of_load h
  · rw [← writeCompare_eq (load_p h) (xV_lt s) (load_lt h)]
    exact opCpx_of_load h
  · rw [← writeCompare_eq (load_p h) (yV_lt s) (load_lt h)]
    exact opCpy_of_load h

/-! ## Logic and bit tests (R167 to R170) -/

section Logic

variable {o : DataOperand} {s t : State} {m : Word}

theorem opAnd_of_load (h : load o s.wA s = .ok (m, t)) :
    opAnd o s = .next ((t.writeA (s.aV &&& m)).setNZ (s.aV &&& m) s.wA) := by
  rw [← load_aV h]
  exact finish_of_load h rfl

theorem opOra_of_load (h : load o s.wA s = .ok (m, t)) :
    opOra o s = .next ((t.writeA (s.aV ||| m)).setNZ (s.aV ||| m) s.wA) := by
  rw [← load_aV h]
  exact finish_of_load h rfl

theorem opEor_of_load (h : load o s.wA s = .ok (m, t)) :
    opEor o s = .next ((t.writeA (s.aV ^^^ m)).setNZ (s.aV ^^^ m) s.wA) := by
  rw [← load_aV h]
  exact finish_of_load h rfl

theorem opBit_immM_of_load {k : Imm} (h : load (.immM k) s.wA s = .ok (m, t)) :
    opBit (.immM k) s = .next { t with p := { s.p with z := s.aV &&& m == 0 } } := by
  rw [← load_aV h, ← load_p h]
  exact finish_of_load h rfl

theorem opBit_mem_of_load {mode : MemMode} (h : load (.mem mode) s.wA s = .ok (m, t)) :
    opBit (.mem mode) s = .next { t with p := { s.p with z := s.aV &&& m == 0, n := topBit s.wA m,
                                                         v := secondBit s.wA m } } := by
  rw [← load_aV h, ← load_p h]
  exact finish_of_load h rfl

end Logic

/-- Settles O29: the instruction is the meaning of its mnemonic on its operand, whatever the form. -/
theorem logicCombinesAccumulator : Obligations.LogicCombinesAccumulator := by
  intro i o s t m ho h
  exact ⟨fun hm => (exec_of_mnemonic_operand hm ho s).trans (opAnd_of_load h),
    fun hm => (exec_of_mnemonic_operand hm ho s).trans (opOra_of_load h),
    fun hm => (exec_of_mnemonic_operand hm ho s).trans (opEor_of_load h)⟩

/-- Settles O30: the operand decides whether the two top bits are taken. -/
theorem bitTestsOperand : Obligations.BitTestsOperand := by
  intro i s t m hm
  refine ⟨fun k ho h => (exec_of_mnemonic_operand hm ho s).trans (opBit_immM_of_load h), fun mode ho h => ?_⟩
  rw [← topBit_eq_getLsbD, ← secondBit_eq_getLsbD]
  exact (exec_of_mnemonic_operand hm ho s).trans (opBit_mem_of_load h)

/-! ## Increment, decrement, shift, rotate (R171 to R180, R185) -/

/-- Reducing to a width after reducing to 16 bits. -/
theorem mod_two_pow_bitsOf (w : Width) (n : Nat) : n % 2 ^ 16 % 2 ^ bitsOf w = n % 2 ^ bitsOf w := by
  cases w <;> simp only [bitsOf] <;> omega

theorem toNat_incW (w : Width) (c : Bool) (v : Word) : (incW w c v).1.toNat = (v.toNat + 1) % 2 ^ bitsOf w := by
  simp only [incW, toNat_truncW, BitVec.toNat_add, mod_two_pow_bitsOf]
  rfl

theorem toNat_decW (w : Width) (c : Bool) (v : Word) :
    (decW w c v).1.toNat = (v.toNat + 2 ^ bitsOf w - 1) % 2 ^ bitsOf w := by
  have hone : (1 : Word).toNat = 1 := rfl
  simp only [decW, toNat_truncW, BitVec.toNat_sub, hone]
  cases w <;> simp only [bitsOf] <;> omega

theorem toNat_aslW (w : Width) (c : Bool) (v : Word) : (aslW w c v).1.toNat = v.toNat * 2 % 2 ^ bitsOf w := by
  simp only [aslW, toNat_truncW, BitVec.toNat_shiftLeft, Nat.shiftLeft_eq, mod_two_pow_bitsOf]

theorem toNat_lsrW (w : Width) (c : Bool) (v : Word) : (lsrW w c v).1.toNat = v.toNat / 2 := by
  simp only [lsrW, BitVec.toNat_ushiftRight, Nat.shiftRight_eq_div_pow, Nat.pow_one]

theorem toNat_carry (c : Bool) : (BitVec.ofNat 16 c.toNat).toNat = c.toNat := by
  cases c <;> rfl

/-- The carry goes into the bit the left shift has freed. -/
theorem toNat_shiftLeft_or_carry (c : Bool) (v : Word) :
    (v <<< 1 ||| BitVec.ofNat 16 c.toNat).toNat = (v.toNat * 2 + c.toNat) % 2 ^ 16 := by
  have hc : c.toNat < 2 ^ 1 := Bool.toNat_lt c
  have hshift : v.toNat <<< 1 % 2 ^ 16 = (v.toNat % 32768) <<< 1 := by
    simp only [Nat.shiftLeft_eq]
    omega
  rw [BitVec.toNat_or, BitVec.toNat_shiftLeft, hshift, toNat_carry, ← Nat.shiftLeft_add_eq_or_of_lt hc,
    Nat.shiftLeft_eq]
  omega

theorem toNat_rolW (w : Width) (c : Bool) (v : Word) :
    (rolW w c v).1.toNat = (v.toNat * 2 + c.toNat) % 2 ^ bitsOf w := by
  simp only [rolW, toNat_truncW, toNat_shiftLeft_or_carry, mod_two_pow_bitsOf]

/-- The carry goes into the top bit of the width, which the right shift has freed. -/
theorem toNat_rorW {w : Width} (c : Bool) {v : Word} (hv : v.toNat < 2 ^ bitsOf w) :
    (rorW w c v).1.toNat = v.toNat / 2 + c.toNat * 2 ^ (bitsOf w - 1) := by
  have hhalf : v.toNat / 2 < 2 ^ (bitsOf w - 1) := by cases w <;> simp only [bitsOf] at hv ⊢ <;> omega
  have hcarry : c.toNat <<< (bitsOf w - 1) % 2 ^ 16 = c.toNat <<< (bitsOf w - 1) := by cases w <;> cases c <;> rfl
  simp only [rorW, BitVec.toNat_or, BitVec.toNat_shiftLeft, toNat_carry, hcarry, BitVec.toNat_ushiftRight,
    Nat.shiftRight_eq_div_pow, Nat.pow_one]
  rw [Nat.or_comm, ← Nat.shiftLeft_add_eq_or_of_lt hhalf, Nat.shiftLeft_eq, Nat.add_comm]

/-- Settles O31: the results as numbers; each carry is the bit the operation shifts out, or the old one. -/
theorem modifiersComputeModuloWidth : Obligations.ModifiersComputeModuloWidth := by
  intro w c v hv
  exact ⟨⟨toNat_incW w c v, rfl⟩, ⟨toNat_decW w c v, rfl⟩, ⟨toNat_aslW w c v, topBit_eq_getLsbD w v⟩,
    ⟨toNat_lsrW w c v, rfl⟩, ⟨toNat_rolW w c v, topBit_eq_getLsbD w v⟩, ⟨toNat_rorW c hv, rfl⟩⟩

section Memory

variable {m : MemMode} {ea : Addr} {s t u x : State} {v : Word}

/-- Reading at an effective address leaves the accumulator and the flags. -/
theorem aV_p_of_effAddr_readW {w : Width} (hea : effAddr m s = .ok (ea, t)) (hread : readW ea w t = .ok (v, u)) :
    u.aV = s.aV ∧ u.p = s.p := by
  rw [readW_frame hread, effAddr_frame hea]
  exact ⟨rfl, rfl⟩

theorem writeW_p {w : Width} (h : writeW ea w v u = .ok x) : x.p = u.p := by
  rw [(writeW_ramOnly h).frame]

theorem modifyMem_of_accesses {f : Modifier} (hea : effAddr m s = .ok (ea, t)) (hread : readW ea s.wA t = .ok (v, u))
    (hwrite : writeW ea s.wA (f s.wA s.p.c v).1 u = .ok x) :
    modifyMem f m s =
      .next ({ x with p := { s.p with c := (f s.wA s.p.c v).2 } }.setNZ (f s.wA s.p.c v).1 s.wA) := by
  obtain ⟨-, hpu⟩ := aV_p_of_effAddr_readW hea hread
  have hpx : x.p = s.p := (writeW_p hwrite).trans hpu
  simp only [modifyMem, hea, hread, hpu, hwrite, ok_bind, pure_eq_ok, finish_ok, State.setC, hpx]

end Memory

/-- Settles O32: the six differ in the operation only; the operand decides between accumulator and memory. -/
theorem modifyInstructionsWriteBack : Obligations.ModifyInstructionsWriteBack := by
  intro i f s hcase
  have hexec : exec i s = onModify f i.operand s := by
    obtain ⟨hm, rfl⟩ | ⟨hm, rfl⟩ | ⟨hm, rfl⟩ | ⟨hm, rfl⟩ | ⟨hm, rfl⟩ | ⟨hm, rfl⟩ := hcase <;>
      exact exec_of_mnemonic_operand hm rfl s
  refine ⟨fun ho => ?_, fun m ea t u x v ho hea hread hwrite => ?_⟩
  · rw [hexec, ho]
    rfl
  · rw [hexec, ho]
    exact modifyMem_of_accesses hea hread hwrite

/-! ## The index registers (R173 to R176) -/

/-- A sum reduced to a width does not depend on the bits above it. -/
theorem truncW_truncW_add (w : Width) (v k : Word) : truncW w (truncW w v + k) = truncW w (v + k) := by
  apply BitVec.eq_of_toNat_eq
  simp only [toNat_truncW, BitVec.toNat_add, mod_two_pow_bitsOf, Nat.mod_add_mod]

theorem truncW_truncW_sub (w : Width) (v k : Word) : truncW w (truncW w v - k) = truncW w (v - k) := by
  simp only [BitVec.sub_eq_add_neg, truncW_truncW_add]

/-- Settles O33: neither the register write nor the result depends on the bits above the width. -/
theorem indexIncrementAndDecrement : Obligations.IndexIncrementAndDecrement := by
  intro s
  rw [← writeX_truncW s (s.x + 1), ← writeY_truncW s (s.y + 1), ← writeX_truncW s (s.x - 1),
    ← writeY_truncW s (s.y - 1), ← truncW_truncW_add _ s.x, ← truncW_truncW_add _ s.y,
    ← truncW_truncW_sub _ s.x, ← truncW_truncW_sub _ s.y]
  exact ⟨rfl, rfl, rfl, rfl⟩

/-! ## Test and set, test and reset (R181, R182) -/

/-- On a value of the width, clearing bits needs only the complement at that width. -/
theorem and_notW {w : Width} {v : Word} (hv : truncW w v = v) (a : Word) : v &&& notW w a = v &&& ~~~a := by
  cases w with
  | w8 =>
    rw [← hv]
    apply BitVec.eq_of_getLsbD_eq
    intro i hi
    simp only [notW, truncW, zextByte, lowByte, BitVec.getLsbD_and, BitVec.getLsbD_setWidth, BitVec.getLsbD_extractLsb']
    by_cases h8 : i < 8 <;> simp [h8, hi]
  | w16 => rfl

section Memory

variable {m : MemMode} {ea : Addr} {s t u x : State} {v : Word}

theorem testModify_of_accesses {f : Word → Word → Word} (hea : effAddr m s = .ok (ea, t))
    (hread : readW ea s.wA t = .ok (v, u)) (hwrite : writeW ea s.wA (f v s.aV) u = .ok x) :
    testModify f m s = .next { x with p := { s.p with z := s.aV &&& v == 0 } } := by
  obtain ⟨hau, hpu⟩ := aV_p_of_effAddr_readW hea hread
  have hpx : x.p = s.p := (writeW_p hwrite).trans hpu
  simp only [testModify, hea, hread, hau, hwrite, ok_bind, pure_eq_ok, finish_ok, State.setZ, hpx]

theorem opTsb_of_accesses (hea : effAddr m s = .ok (ea, t)) (hread : readW ea s.wA t = .ok (v, u))
    (hwrite : writeW ea s.wA (v ||| s.aV) u = .ok x) :
    opTsb m s = .next { x with p := { s.p with z := s.aV &&& v == 0 } } :=
  testModify_of_accesses (f := fun v a => v ||| a) hea hread hwrite

theorem opTrb_of_accesses (hea : effAddr m s = .ok (ea, t)) (hread : readW ea s.wA t = .ok (v, u))
    (hwrite : writeW ea s.wA (v &&& ~~~s.aV) u = .ok x) :
    opTrb m s = .next { x with p := { s.p with z := s.aV &&& v == 0 } } := by
  rw [← and_notW (readW_trunc hread)] at hwrite
  exact testModify_of_accesses (f := fun v a => v &&& notW s.wA a) hea hread hwrite

end Memory

/-- Settles O34: one read, one write of the old value's bits set or cleared, and `P.Z` alone. -/
theorem testAndSetOrReset : Obligations.TestAndSetOrReset := by
  intro i m ea s t u x v ho hea hread
  exact ⟨fun hm hwrite => (exec_of_mnemonic_operand hm ho s).trans (opTsb_of_accesses hea hread hwrite),
    fun hm hwrite => (exec_of_mnemonic_operand hm ho s).trans (opTrb_of_accesses hea hread hwrite)⟩

end Sys2Proof.Machine
end

section
/-! SUPPORT. Control transfer (`43_control_transfer.md`): branches, jumps, calls and returns, and that a return finds
the frame its call pushed. -/

namespace Sys2Proof.Machine

open Sys2Proof

/-! ## Branches (R200 to R210) -/

theorem branch_on_set (flag : Bool) (disp : Byte) (s : State) :
    branch flag disp s = .next (if flag = true then { s with pc := s.pc + disp.signExtend 16 } else s) := rfl

theorem branch_on_clear (flag : Bool) (disp : Byte) (s : State) :
    branch (!flag) disp s = .next (if flag = false then { s with pc := s.pc + disp.signExtend 16 } else s) := by
  cases flag <;> rfl

/-- Settles O35: each is the branch handler on its flag, set or clear. -/
theorem branchesAddDisplacement : Obligations.BranchesAddDisplacement := by
  intro disp long s
  exact ⟨branch_on_clear s.p.n disp s, branch_on_set s.p.n disp s, branch_on_clear s.p.v disp s,
    branch_on_set s.p.v disp s, branch_on_clear s.p.c disp s, branch_on_set s.p.c disp s, branch_on_clear s.p.z disp s,
    branch_on_set s.p.z disp s, branch_on_set true disp s, rfl⟩

/-! ## Jumps (R211, R212) -/

section Transfer

variable {s t u : State} {dest : Target} {a p : Word} {bank : Byte} {addr : Addr}

theorem jumpTarget_abi_of_storedWord (h : storedWord s (bank0 a) = some p) :
    jumpTarget (.abi a) s = .ok (mkAddr s.pb p, s) := by
  simp only [jumpTarget, readWord_of_storedWord h, ok_bind, pure_eq_ok]

theorem jumpTarget_axi_of_storedWord (h : storedWord s (mkAddr s.pb (a + s.xV)) = some p) :
    jumpTarget (.axi a) s = .ok (mkAddr s.pb p, s) := by
  simp only [jumpTarget, readWord_of_storedWord h, ok_bind, pure_eq_ok]

theorem jumpTarget_ail_of_storedLong (h : storedLong s (bank0 a) = some addr) :
    jumpTarget (.ail a) s = .ok (addr, s) :=
  readLong_of_storedLong h

theorem opJmp_of_jumpTarget (h : jumpTarget dest s = .ok (mkAddr bank p, t)) :
    opJmp dest s = .next { t with pc := p } := by
  simp only [opJmp, h, ok_bind, pure_eq_ok, finish_ok, offsetOf_mkAddr]

theorem opJml_of_jumpTarget (h : jumpTarget dest s = .ok (addr, t)) :
    opJml dest s = .next { t with pc := offsetOf addr, pb := bankOf addr } := by
  simp only [opJml, h, ok_bind, pure_eq_ok, finish_ok]

/-! ## Calls (R213, R214) -/

/-- The target is found in the state the push leaves. -/
theorem opJsr_of_push16 (hpush : push16 (s.pc - 1) s = .ok t) (h : jumpTarget dest t = .ok (mkAddr bank p, u)) :
    opJsr dest s = .next { u with pc := p } := by
  simp only [opJsr, hpush, h, ok_bind, pure_eq_ok, finish_ok, offsetOf_mkAddr]

/-- The push of the bank leaves the counter that is pushed next. -/
theorem exec_jsl_of_pushes (hbank : push8 s.pb s = .ok t) (hpc : push16 (s.pc - 1) t = .ok u) (target : Addr) :
    exec (.jsl target) s = .next { u with pc := offsetOf target, pb := bankOf target } := by
  have hcounter : t.pc = s.pc := by rw [(push8_stackOnly hbank).frame]
  rw [← hcounter] at hpc
  exact finish_eq_next.mpr (by simp only [hbank, hpc, jumpTarget, ok_bind, pure_eq_ok])

end Transfer

/-- Settles O36: where each form goes is where its operand says (`jumpTarget`). -/
theorem jumpsGoToTarget : Obligations.JumpsGoToTarget := by
  intro s a p t
  exact ⟨opJmp_of_jumpTarget (dest := .absPb a) rfl, fun h => opJmp_of_jumpTarget (jumpTarget_abi_of_storedWord h),
    fun h => opJmp_of_jumpTarget (jumpTarget_axi_of_storedWord h), opJml_of_jumpTarget (dest := .ablPc t) rfl,
    fun h => opJml_of_jumpTarget (jumpTarget_ail_of_storedLong h)⟩

/-- Settles O37: a push changes neither the bank nor the index of a pointer read after it. -/
theorem callsPushReturnAddress : Obligations.CallsPushReturnAddress := by
  intro s t u a p target
  refine ⟨fun hpush => opJsr_of_push16 (dest := .absPb a) hpush rfl, fun hpush hp => ?_,
    fun hbank hpc => exec_jsl_of_pushes hbank hpc target⟩
  have hpointer : mkAddr t.pb (a + t.xV) = mkAddr s.pb (a + s.xV) := by
    rw [(push16_stackOnly hpush).frame]
    rfl
  rw [← hpointer] at hp
  exact opJsr_of_push16 hpush (jumpTarget_axi_of_storedWord hp)

/-! ## Returns (R215, R216) -/

section Return

variable {s : State} {lo hi bank : Byte}

/-- The word at the next two pull slots. -/
theorem pull16_of_pullSlot {t : State} {k : Nat} (h : t = { s with sp := pullSlot s k })
    (hlo : peek s (bank0 (pullSlot s (k + 1))) = some lo) (hhi : peek s (bank0 (pullSlot s (k + 2))) = some hi) :
    pull16 t = .ok (mkWord hi lo, { s with sp := pullSlot s (k + 2) }) :=
  pull16_of_pull8 (pull8_of_pullSlot s t k h lo hlo) (pull8_of_pullSlot s _ (k + 1) rfl hi hhi)

theorem exec_rts_of_peek (hlo : peek s (bank0 (pullSlot s 1)) = some lo)
    (hhi : peek s (bank0 (pullSlot s 2)) = some hi) :
    exec .rts s = .next { s with pc := mkWord hi lo + 1, sp := pullSlot s 2 } :=
  have hword : pull16 s = .ok (mkWord hi lo, { s with sp := pullSlot s 2 }) := pull16_of_pullSlot (k := 0) rfl hlo hhi
  finish_eq_next.mpr (by simp only [hword, ok_bind, pure_eq_ok])

theorem exec_rtl_of_peek (hlo : peek s (bank0 (pullSlot s 1)) = some lo)
    (hhi : peek s (bank0 (pullSlot s 2)) = some hi) (hbank : peek s (bank0 (pullSlot s 3)) = some bank) :
    exec .rtl s = .next { s with pc := mkWord hi lo + 1, pb := bank, sp := pullSlot s 3 } := by
  have hword : pull16 s = .ok (mkWord hi lo, { s with sp := pullSlot s 2 }) := pull16_of_pullSlot (k := 0) rfl hlo hhi
  have hbyte : pull8 { s with pc := mkWord hi lo + 1, sp := pullSlot s 2 } =
      .ok (bank, { s with pc := mkWord hi lo + 1, sp := pullSlot s 3 }) :=
    pull8_of_pullSlot { s with pc := mkWord hi lo + 1 } _ 2 rfl bank hbank
  exact finish_eq_next.mpr (by simp only [hword, hbyte, ok_bind, pure_eq_ok])

end Return

/-- Settles O38: each pull reads its slot, and neither the counter nor the bank moves a slot. -/
theorem returnsGoPastPulledAddress : Obligations.ReturnsGoPastPulledAddress := by
  intro s lo hi bank hlo hhi
  exact ⟨exec_rts_of_peek hlo hhi, fun hbank => exec_rtl_of_peek hlo hhi hbank⟩

/-! ## A call, then its return (R217) -/

/-- In `r` the bytes `bs` pushed from `s` are still on top of the stack, whatever else has changed. -/
structure FrameHeld (s : State) (bs : List Byte) (r : State) : Prop where
  sp : r.sp = pushSlot s bs.length
  e : r.e = s.e
  slot : ∀ k (h : k < bs.length), peek r (bank0 (pushSlot s k)) = some bs[k]

theorem Pushed.frameHeld {s t : State} {bs : List Byte} (P : Pushed s bs t) : FrameHeld s bs t :=
  ⟨by rw [P.frame], by rw [P.frame], P.slot⟩

section FrameHeld

variable {s t r : State} {bs : List Byte} {v : Word} {bank : Byte}

/-- `S`, `E` and the pushed bytes are all the frame consists of. -/
theorem FrameHeld.of_unchanged (H : FrameHeld s bs t) (hsp : r.sp = t.sp) (he : r.e = t.e)
    (hbytes : ∀ k, k < bs.length → peek r (bank0 (pushSlot s k)) = peek t (bank0 (pushSlot s k))) :
    FrameHeld s bs r :=
  ⟨hsp.trans H.sp, he.trans H.e, fun k hk => (hbytes k hk).trans (H.slot k hk)⟩

/-- Reads leave the frame. -/
theorem FrameHeld.of_reads (H : FrameHeld s bs t)
    (h : r = { t with draws := r.draws, bus := { t.bus with device := r.bus.device } }) : FrameHeld s bs r :=
  H.of_unchanged (by rw [h]) (by rw [h]) fun _ _ => (Spares.of_reads h).peek _ (by simp)

/-- The pull slots are the push slots in reverse: the `k`-th pull undoes the `k`-th push from the end. -/
theorem pullSlot_eq_pushSlot (hpage : s.stackPageOk = true) (he : r.e = s.e) {k m : Nat}
    (hsp : r.sp = pushSlot s (m + k)) : pullSlot r k = pushSlot s m := by
  induction k generalizing m with
  | zero => exact hsp
  | succ k ih =>
    have hbelow : pullSlot r k = pushSlot s (m + 1) := ih (by rw [hsp, Nat.add_assoc, Nat.add_comm 1 k])
    calc pullSlot r (k + 1) = (s.writeS (pushSlot s (m + 1) + 1)).sp := by
          simp only [pullSlot, hbelow, State.writeS, he]
      _ = pushSlot s m := pushSlot_up s hpage m

theorem FrameHeld.pullSlot_eq (H : FrameHeld s bs r) (hpage : s.stackPageOk = true) {k m : Nat}
    (hlen : bs.length = m + k) : pullSlot r k = pushSlot s m :=
  pullSlot_eq_pushSlot hpage H.e (hlen ▸ H.sp)

/-- `RTS` over the frame of a word. -/
theorem FrameHeld.exec_rts (H : FrameHeld s [highByte v, lowByte v] r) (hpage : s.stackPageOk = true) :
    exec .rts r = .next { r with pc := v + 1, sp := s.sp } := by
  have hlast : pullSlot r 1 = pushSlot s 1 := H.pullSlot_eq hpage rfl
  have htop : pullSlot r 2 = s.sp := H.pullSlot_eq (m := 0) hpage rfl
  have hlo : peek r (bank0 (pullSlot r 1)) = some (lowByte v) := hlast ▸ H.slot 1 (by simp)
  have hhi : peek r (bank0 (pullSlot r 2)) = some (highByte v) := htop ▸ H.slot 0 (by simp)
  rw [exec_rts_of_peek hlo hhi, mkWord_high_low, htop]

/-- `RTL` over the frame of a bank and a word. -/
theorem FrameHeld.exec_rtl (H : FrameHeld s [bank, highByte v, lowByte v] r) (hpage : s.stackPageOk = true) :
    exec .rtl r = .next { r with pc := v + 1, pb := bank, sp := s.sp } := by
  have hlast : pullSlot r 1 = pushSlot s 2 := H.pullSlot_eq hpage rfl
  have hnext : pullSlot r 2 = pushSlot s 1 := H.pullSlot_eq hpage rfl
  have htop : pullSlot r 3 = s.sp := H.pullSlot_eq (m := 0) hpage rfl
  have hlo : peek r (bank0 (pullSlot r 1)) = some (lowByte v) := hlast ▸ H.slot 2 (by simp)
  have hhi : peek r (bank0 (pullSlot r 2)) = some (highByte v) := hnext ▸ H.slot 1 (by simp)
  have hbank : peek r (bank0 (pullSlot r 3)) = some bank := htop ▸ H.slot 0 (by simp)
  rw [exec_rtl_of_peek hlo hhi hbank, mkWord_high_low, htop]

end FrameHeld

section Call

variable {s t : State}

/-- What a `JSR` that answers leaves on the stack: its pointer, if it has one, is only read. -/
theorem opJsr_frameHeld {dest : Target} (h : opJsr dest s = .next t) (hw : s.bus.wf = true) (hroom : stackRoom s 2) :
    FrameHeld s [highByte (s.pc - 1), lowByte (s.pc - 1)] t := by
  obtain ⟨u, hpush, h⟩ := bind_eq_ok.mp (ok_of_finish h)
  obtain ⟨⟨ta, x⟩, htarget, h⟩ := bind_eq_ok.mp h
  cases h
  obtain ⟨u', hpush', P⟩ := (Pushed.nil hw).word (s.pc - 1) 2 (by simp) hroom
  obtain rfl : u' = u := Except.ok.inj (hpush'.symm.trans hpush)
  exact (P.frameHeld.of_reads (jumpTarget_frame htarget)).of_unchanged rfl rfl fun _ _ => rfl

theorem exec_jsl_frameHeld (target : Addr) (hw : s.bus.wf = true) (hroom : stackRoom s 3) :
    ∃ t, exec (.jsl target) s = .next t ∧ FrameHeld s [s.pb, highByte (s.pc - 1), lowByte (s.pc - 1)] t := by
  obtain ⟨t, hbank, Pbank⟩ := (Pushed.nil hw).snoc s.pb 3 (by simp) hroom
  obtain ⟨u, hpc, P⟩ := Pbank.word (s.pc - 1) 3 (by simp) hroom
  exact ⟨_, exec_jsl_of_pushes hbank hpc target, P.frameHeld.of_unchanged rfl rfl fun _ _ => rfl⟩

/-- The return of a `JSR` from a state that holds what it pushed. -/
theorem exec_rts_after_opJsr {dest : Target} (h : opJsr dest s = .next t) (hw : s.bus.wf = true)
    (hpage : s.stackPageOk = true) (hroom : stackRoom s 2) (r : State) (hsp : r.sp = t.sp) (he : r.e = t.e)
    (hbytes : ∀ k, k < 2 → peek r (bank0 (pushSlot s k)) = peek t (bank0 (pushSlot s k))) :
    exec .rts r = .next { r with pc := s.pc, sp := s.sp } := by
  have H := (opJsr_frameHeld h hw hroom).of_unchanged hsp he hbytes
  rw [H.exec_rts hpage, BitVec.sub_add_cancel]

end Call

/-- Settles O39: a call leaves the frame of its return address, and a return over that frame pulls it whole. -/
theorem callThenReturnComesBack : Obligations.CallThenReturnComesBack := by
  intro s a target hw hpage
  refine ⟨fun hroom => ?_, fun hroom t h => exec_rts_after_opJsr (dest := .axi a) h hw hpage hroom, fun hroom => ?_⟩
  · obtain ⟨t, hpush, -⟩ := (Pushed.nil hw).word (s.pc - 1) 2 (by simp) hroom
    have hcall : opJsr (.absPb a) s = .next { t with pc := a } := opJsr_of_push16 hpush rfl
    exact ⟨_, hcall, exec_rts_after_opJsr hcall hw hpage hroom⟩
  · obtain ⟨t, hcall, H⟩ := exec_jsl_frameHeld target hw hroom
    refine ⟨t, hcall, fun r hsp he hbytes => ?_⟩
    rw [(H.of_unchanged hsp he hbytes).exec_rtl hpage, BitVec.sub_add_cancel]

end Sys2Proof.Machine
end

section
/-! SUPPORT. The push instructions (`44_stack.md` R231 to R237) and push effective address (R245 to R247). -/

namespace Sys2Proof.Machine

open Sys2Proof

/-! ## The push instructions -/

section Push

variable {s t : State} {w : Width} {v : Word} {d : Byte}

theorem exec_pha_of_pushW (hw : s.wA = w) (h : pushW w s.a s = .ok t) : exec .pha s = .next t :=
  finish_eq_next.mpr (hw ▸ h)

theorem exec_phx_of_pushW (hw : s.wX = w) (h : pushW w s.x s = .ok t) : exec .phx s = .next t :=
  finish_eq_next.mpr (hw ▸ h)

theorem exec_phy_of_pushW (hw : s.wX = w) (h : pushW w s.y s = .ok t) : exec .phy s = .next t :=
  finish_eq_next.mpr (hw ▸ h)

/-- The word is read at the direct-page location, and the read leaves the state. -/
theorem exec_pei_of_storedWord (hv : storedWord s (dpAddr s d 0) = some v) (h : push16 v s = .ok t) :
    exec (.pei d) s = .next t :=
  finish_eq_next.mpr (by simp only [readWord_of_storedWord hv, ok_bind, h])

end Push

/-- Settles O41: `PHA`, `PHX`, `PHY` push at the width in force, the other four at the fixed width of their register. -/
theorem pushInstructionsPushRegister : Obligations.PushInstructionsPushRegister := by
  intro s t
  refine ⟨fun hm h => ?_, fun hm h => ?_, fun hx h => ?_, fun hx h => ?_, fun hx h => ?_, fun hx h => ?_,
    finish_eq_next.mpr, finish_eq_next.mpr, finish_eq_next.mpr, finish_eq_next.mpr⟩
  · exact exec_pha_of_pushW (widthOf_w8 hm) h
  · exact exec_pha_of_pushW (widthOf_w16 hm) h
  · exact exec_phx_of_pushW (widthOf_w8 hx) h
  · exact exec_phx_of_pushW (widthOf_w16 hx) h
  · exact exec_phy_of_pushW (widthOf_w8 hx) h
  · exact exec_phy_of_pushW (widthOf_w16 hx) h

/-! ## Push effective address -/

/-- Settles O43: `PEA` and `PER` push a word they compute; the number says at which location the word of `PEI` lies. -/
theorem pushEffectiveAddress : Obligations.PushEffectiveAddress := by
  intro s t v d at_
  refine ⟨finish_eq_next.mpr, fun hat hv h => ?_, finish_eq_next.mpr⟩
  obtain rfl : at_ = dpAddr s d 0 := eq_dpAddr_of_toNat hat
  exact exec_pei_of_storedWord hv h

end Sys2Proof.Machine
end

section
/-! SUPPORT. Status flags, mode switch, no-operation and reserved opcode (`45_status_and_mode.md` R260 to R273), wait and
stop (`47_system.md` R293, R294). -/

namespace Sys2Proof.Machine

open Sys2Proof

/-! ## The status byte masked by a constant -/

theorem Flags.ofByte_and_not (b k : Byte) : Flags.ofByte (b &&& ~~~k) =
    { c := (Flags.ofByte b).c && !k.getLsbD 0, z := (Flags.ofByte b).z && !k.getLsbD 1,
      i := (Flags.ofByte b).i && !k.getLsbD 2, d := (Flags.ofByte b).d && !k.getLsbD 3,
      x := (Flags.ofByte b).x && !k.getLsbD 4, m := (Flags.ofByte b).m && !k.getLsbD 5,
      v := (Flags.ofByte b).v && !k.getLsbD 6, n := (Flags.ofByte b).n && !k.getLsbD 7 } := by
  simp [Flags.ofByte]

theorem Flags.ofByte_or (b k : Byte) : Flags.ofByte (b ||| k) =
    { c := (Flags.ofByte b).c || k.getLsbD 0, z := (Flags.ofByte b).z || k.getLsbD 1,
      i := (Flags.ofByte b).i || k.getLsbD 2, d := (Flags.ofByte b).d || k.getLsbD 3,
      x := (Flags.ofByte b).x || k.getLsbD 4, m := (Flags.ofByte b).m || k.getLsbD 5,
      v := (Flags.ofByte b).v || k.getLsbD 6, n := (Flags.ofByte b).n || k.getLsbD 7 } := by
  simp only [Flags.ofByte, BitVec.getLsbD_or]

/-! ## One flag, and several -/

/-- Settles O44: each is one of the flag writes `setC`, `setI`, `setD`, `setV`. -/
theorem flagInstructionsWriteOneFlag : Obligations.FlagInstructionsWriteOneFlag := fun _ =>
  ⟨rfl, rfl, rfl, rfl, rfl, rfl, rfl⟩

/-- Settles O45: a flag of the masked status byte is the flag of `P` masked by its bit of the constant. -/
theorem repClearsAndSepSetsFlags : Obligations.RepClearsAndSepSetsFlags := by
  intro k s
  constructor
  · calc exec (.rep k) s = .next { s with p := Flags.ofByte (s.p.toByte &&& ~~~k) } := rfl
      _ = _ := by rw [Flags.ofByte_and_not, Flags.ofByte_toByte]
  · calc exec (.sep k) s = .next { s with p := Flags.ofByte (s.p.toByte ||| k) } := rfl
      _ = _ := by rw [Flags.ofByte_or, Flags.ofByte_toByte]

/-! ## The exchange of the carry and `E` -/

/-- In Native mode `WriteS` leaves the stack pointer it is given (`10_state.md` R25). -/
theorem writeS_sp_self_of_native {s : State} (h : s.e = false) : s.writeS s.sp = s := by
  rw [State.writeS, if_neg (Bool.eq_false_iff.mp h)]

/-- The case distinction of `XCE` is the one of `WriteS`, in the mode entered. -/
theorem exec_xce_eq_writeS (s : State) :
    exec .xce s = .next ({ s with p := { s.p with c := s.e }, e := s.p.c }.writeS s.sp) := by
  show execXce s = _
  cases hc : s.p.c with
  | true => simp only [execXce, hc, if_true]
  | false => simp [execXce, hc, writeS_sp_self_of_native]

/-- Settles O46: the stack pointer is written by `WriteS` in the mode entered, which forces its high byte in Emulation. -/
theorem xceExchangesCarryAndEmulation : Obligations.XceExchangesCarryAndEmulation :=
  exec_xce_eq_writeS

/-! ## No-operation, reserved opcode, wait and stop -/

section Wdm

variable {s : State} (signature : Option Byte)

theorem exec_wdm_fatal (h : s.cfg.wdmBehaviour = .fatal) :
    exec (.wdm signature) s = .fault (.fatal (.decodeError 0x42) s.bus) := by
  show execWdm signature s = _
  simp only [execWdm, h, fatal, Stop.answer]

theorem exec_wdm_nop2 (h : s.cfg.wdmBehaviour = .nop2) : exec (.wdm signature) s = .next s := by
  show execWdm signature s = _
  simp only [execWdm, h]

end Wdm

/-- Settles O47: `WDM` by its parameter (`exec_wdm_fatal`, `exec_wdm_nop2`), the other three by their definitions. -/
theorem nopWdmWaiStp : Obligations.NopWdmWaiStp := fun _ signature =>
  ⟨rfl, exec_wdm_fatal signature, exec_wdm_nop2 signature, rfl, rfl⟩

end Sys2Proof.Machine
end

section
/-! SUPPORT. The block moves (`46_block_move.md` R280, R281). -/

namespace Sys2Proof.Machine

open Sys2Proof

/-! ## The indices and the count -/

/-- An index moved from its value at the width, or from the whole register: `WriteX` writes the same. -/
theorem writeX_xV_add (s : State) (k : Word) : s.writeX (s.xV + k) = s.writeX (s.x + k) := by
  rw [← writeX_truncW, State.xV, truncW_truncW_add, writeX_truncW]

theorem writeY_yV_add (s : State) (k : Word) : s.writeY (s.yV + k) = s.writeY (s.y + k) := by
  rw [← writeY_truncW, State.yV, truncW_truncW_add, writeY_truncW]

/-- The count runs out when it goes down from 0, at all 16 bits. -/
theorem sub_one_eq_allOnes_iff (v : Word) : v - 1 = 0xFFFF ↔ v = 0x0000 :=
  sub_eq_iff_eq_add

/-! ## One step -/

section Step

variable {dst src b : Byte} {s t u : State}

/-- The read and the write of a block move leave the registers, so `X`, `Y`, `A` and `PC` are still those before. -/
theorem blockMove_of_accesses (delta : Word) (hread : readByte (mkAddr src s.xV) s = .ok (b, t))
    (hwrite : writeByte (mkAddr dst s.yV) b t = .ok u) :
    blockMove delta dst src s = .next { (u.writeX (s.x + delta)).writeY (s.y + delta) with
      a := s.a - 1, db := dst, pc := if s.a = 0x0000 then s.pc else s.pc - 3 } := by
  have hyV : t.yV = s.yV := by rw [readByte_frame hread]; rfl
  have hregs : u = { s with draws := u.draws, bus := u.bus } := by rw [writeByte_frame hwrite, readByte_frame hread]
  have ha : u.a = s.a := by rw [hregs]
  have hx : u.x = s.x := by rw [hregs]
  have hy : u.y = s.y := by rw [hregs]
  have hpc : u.pc = s.pc := by rw [hregs]
  simp only [blockMove, hread, hyV, hwrite, ok_bind, pure_eq_ok, finish_ok, writeX_xV_add, writeY_yV_add,
    State.writeX_a, State.writeX_y, State.writeX_pc, State.writeY_a, State.writeY_pc, sub_one_eq_allOnes_iff,
    ha, hx, hy, hpc]
  split <;> rfl

end Step

/-- Settles O48: `MVN` and `MVP` are one block move, whose indices go up by 1 or, by adding `-1`, down by 1. -/
theorem blockMoveMovesOneByte : Obligations.BlockMoveMovesOneByte := by
  intro dst src b s t u hread hwrite
  refine ⟨blockMove_of_accesses 1 hread hwrite, ?_⟩
  rw [BitVec.sub_eq_add_neg s.x, BitVec.sub_eq_add_neg s.y]
  exact blockMove_of_accesses (-1) hread hwrite

end Sys2Proof.Machine
end

section
/-! SUPPORT. The software interrupts, the return from interrupt, and an entry followed by its return
(`47_system.md` R290 to R295). -/

namespace Sys2Proof.Machine

open Sys2Proof

/-! ## `BRK` and `COP` (R290, R291) -/

/-- Settles O50: both are the entry sequence from the post-operand counter; the vectors are the table of `vectorOf`. -/
theorem brkAndCopTakeInterruptEntry : Obligations.BrkAndCopTakeInterruptEntry :=
  ⟨fun _ _ _ => ⟨finish_eq_next.mpr, finish_eq_next.mpr⟩,
    fun _ => ⟨rfl, rfl, rfl, rfl, rfl, rfl, rfl, rfl, rfl, rfl⟩, rfl⟩

/-! ## `RTI` (R292) -/

section Return

variable {s : State} {b lo hi bank : Byte}

/-- The first pull, the status. -/
theorem pull8_status_of_peek (hb : peek s (bank0 (pullSlot s 1)) = some b) :
    pull8 s = .ok (b, { s with sp := pullSlot s 1 }) :=
  pull8_of_pullSlot s s 0 rfl b hb

/-- The next two pulls, the counter: the flags just written move no slot. -/
theorem pull16_counter_of_peek (b : Byte) (hlo : peek s (bank0 (pullSlot s 2)) = some lo)
    (hhi : peek s (bank0 (pullSlot s 3)) = some hi) :
    pull16 (State.setP { s with sp := pullSlot s 1 } b) =
      .ok (mkWord hi lo, { s with p := Flags.ofByte b, sp := pullSlot s 3 }) :=
  pull16_of_pullSlot (s := s.setP b) (k := 1) rfl hlo hhi

theorem exec_rti_emulation_of_peek (he : s.e = true) (hb : peek s (bank0 (pullSlot s 1)) = some b)
    (hlo : peek s (bank0 (pullSlot s 2)) = some lo) (hhi : peek s (bank0 (pullSlot s 3)) = some hi) :
    exec .rti s = .next { s with p := Flags.ofByte b, pc := mkWord hi lo, sp := pullSlot s 3 } := by
  refine finish_eq_next.mpr ?_
  simp only [interruptReturn, pull8_status_of_peek hb, pull16_counter_of_peek b hlo hhi, ok_bind, pure_eq_ok]
  exact if_pos he

theorem exec_rti_native_of_peek (he : s.e = false) (hb : peek s (bank0 (pullSlot s 1)) = some b)
    (hlo : peek s (bank0 (pullSlot s 2)) = some lo) (hhi : peek s (bank0 (pullSlot s 3)) = some hi)
    (hbank : peek s (bank0 (pullSlot s 4)) = some bank) :
    exec .rti s = .next { s with p := Flags.ofByte b, pc := mkWord hi lo, pb := bank, sp := pullSlot s 4 } := by
  have hpull : pull8 { s with p := Flags.ofByte b, pc := mkWord hi lo, sp := pullSlot s 3 } =
      .ok (bank, { s with p := Flags.ofByte b, pc := mkWord hi lo, sp := pullSlot s 4 }) :=
    pull8_of_pullSlot { s with p := Flags.ofByte b, pc := mkWord hi lo } _ 3 rfl bank hbank
  refine finish_eq_next.mpr ?_
  simp only [interruptReturn, pull8_status_of_peek hb, pull16_counter_of_peek b hlo hhi, ok_bind, pure_eq_ok, hpull]
  exact if_neg (Bool.eq_false_iff.mp he)

end Return

/-- Settles O51: each pull reads its slot; only in Native mode is there a fourth. -/
theorem rtiPullsStatusCounterBank : Obligations.RtiPullsStatusCounterBank := by
  intro s b lo hi bank hb hlo hhi
  exact ⟨fun he => exec_rti_emulation_of_peek he hb hlo hhi, fun he => exec_rti_native_of_peek he hb hlo hhi⟩

/-! ## An entry, then its return (R295, R310) -/

/-! The flags a return makes of the status byte the entry pushed (R305, R292). -/

/-- `COP` pushes bit 4 as stored, in both modes. -/
theorem Flags.ofByte_pushedStatus_cop (e : Bool) (p : Flags) :
    Flags.ofByte (pushedStatus .cop e p.toByte) = p := by
  simp only [pushedStatus, ite_self, Flags.ofByte_toByte]

/-- In Native mode every kind pushes bit 4 as stored. -/
theorem Flags.ofByte_pushedStatus_native (kind : InterruptKind) (p : Flags) :
    Flags.ofByte (pushedStatus kind false p.toByte) = p :=
  Flags.ofByte_toByte p

/-- In Emulation mode `BRK` pushes bit 4 set. -/
theorem Flags.ofByte_pushedStatus_brk (p : Flags) :
    Flags.ofByte (pushedStatus .brk true p.toByte) = { p with x := true } := by
  calc Flags.ofByte (pushedStatus .brk true p.toByte) = Flags.ofByte (p.toByte ||| 0x10) := rfl
    _ = _ := by rw [Flags.ofByte_or, Flags.ofByte_toByte]; simp

/-- In Emulation mode a hardware interrupt pushes bit 4 clear. -/
theorem Flags.ofByte_pushedStatus_hardware {kind : InterruptKind} (h : kind = .irq ∨ kind = .nmi ∨ kind = .abort)
    (p : Flags) : Flags.ofByte (pushedStatus kind true p.toByte) = { p with x := false } := by
  calc Flags.ofByte (pushedStatus kind true p.toByte) = Flags.ofByte (p.toByte &&& ~~~0x10) := by
        rcases h with rfl | rfl | rfl <;> rfl
    _ = _ := by rw [Flags.ofByte_and_not, Flags.ofByte_toByte]; simp

section Entry

variable {kind : InterruptKind} {retpc v : Word} {s t r : State} {b bank : Byte}

/-- After the pushes an entry changes registers and reads the vector, so its frame lies on the stack. -/
theorem interruptEntry_frameHeld (h : interruptEntry kind retpc s = .ok t) (hw : s.bus.wf = true)
    (hroom : stackRoom s (if s.e then 3 else 4)) : FrameHeld s (entryFrame kind retpc s) t := by
  obtain ⟨s1, s2, s3, s4, target, hbank, hpc, hstatus, hvector, rfl⟩ := interruptEntry_ok h
  obtain ⟨t1, t2, t3, hbank', hpc', hstatus', P⟩ := entry_pushed kind retpc s hw hroom
  obtain rfl : t1 = s1 := Except.ok.inj (hbank'.symm.trans hbank)
  obtain rfl : t2 = s2 := Except.ok.inj (hpc'.symm.trans hpc)
  obtain rfl : t3 = s3 := Except.ok.inj (hstatus'.symm.trans hstatus)
  have hentered : FrameHeld s (entryFrame kind retpc s) t3.enterHandler :=
    P.frameHeld.of_unchanged rfl rfl fun _ _ => rfl
  exact (hentered.of_reads (readWord_frame hvector)).of_unchanged rfl rfl fun _ _ => rfl

/-- `RTI` in Emulation mode over the frame of a word and a status byte. -/
theorem FrameHeld.exec_rti_emulation (H : FrameHeld s [highByte v, lowByte v, b] r) (hpage : s.stackPageOk = true)
    (he : s.e = true) : exec .rti r = .next { r with p := Flags.ofByte b, pc := v, sp := s.sp } := by
  have hlast : pullSlot r 1 = pushSlot s 2 := H.pullSlot_eq hpage rfl
  have hnext : pullSlot r 2 = pushSlot s 1 := H.pullSlot_eq hpage rfl
  have htop : pullSlot r 3 = s.sp := H.pullSlot_eq (m := 0) hpage rfl
  have hb : peek r (bank0 (pullSlot r 1)) = some b := hlast ▸ H.slot 2 (by simp)
  have hlo : peek r (bank0 (pullSlot r 2)) = some (lowByte v) := hnext ▸ H.slot 1 (by simp)
  have hhi : peek r (bank0 (pullSlot r 3)) = some (highByte v) := htop ▸ H.slot 0 (by simp)
  rw [exec_rti_emulation_of_peek (H.e.trans he) hb hlo hhi, mkWord_high_low, htop]

/-- `RTI` in Native mode over the frame of a bank, a word and a status byte. -/
theorem FrameHeld.exec_rti_native (H : FrameHeld s [bank, highByte v, lowByte v, b] r) (hpage : s.stackPageOk = true)
    (he : s.e = false) : exec .rti r = .next { r with p := Flags.ofByte b, pc := v, pb := bank, sp := s.sp } := by
  have hlast : pullSlot r 1 = pushSlot s 3 := H.pullSlot_eq hpage rfl
  have hnext : pullSlot r 2 = pushSlot s 2 := H.pullSlot_eq hpage rfl
  have hsecond : pullSlot r 3 = pushSlot s 1 := H.pullSlot_eq hpage rfl
  have htop : pullSlot r 4 = s.sp := H.pullSlot_eq (m := 0) hpage rfl
  have hb : peek r (bank0 (pullSlot r 1)) = some b := hlast ▸ H.slot 3 (by simp)
  have hlo : peek r (bank0 (pullSlot r 2)) = some (lowByte v) := hnext ▸ H.slot 2 (by simp)
  have hhi : peek r (bank0 (pullSlot r 3)) = some (highByte v) := hsecond ▸ H.slot 1 (by simp)
  have hbank : peek r (bank0 (pullSlot r 4)) = some bank := htop ▸ H.slot 0 (by simp)
  rw [exec_rti_native_of_peek (H.e.trans he) hb hlo hhi hbank, mkWord_high_low, htop]

/-- `RTI` over the frame of an entry, in the mode of the entry. -/
theorem FrameHeld.exec_rti (H : FrameHeld s (entryFrame kind retpc s) r) (hpage : s.stackPageOk = true) :
    exec .rti r = .next { r with pc := retpc, pb := if s.e then r.pb else s.pb, sp := s.sp,
                                 p := Flags.ofByte (pushedStatus kind s.e s.p.toByte) } := by
  cases he : s.e with
  | true =>
    have hframe : entryFrame kind retpc s = [highByte retpc, lowByte retpc, pushedStatus kind true s.p.toByte] := by
      simp only [entryFrame, he, if_true, List.nil_append]
    exact (hframe ▸ H).exec_rti_emulation hpage he
  | false =>
    have hframe : entryFrame kind retpc s =
        [s.pb, highByte retpc, lowByte retpc, pushedStatus kind false s.p.toByte] := by
      simp only [entryFrame, he, Bool.false_eq_true, if_false, List.singleton_append]
    exact (hframe ▸ H).exec_rti_native hpage he

/-- The registers an entry leaves (R306). -/
theorem interruptEntry_registers (h : interruptEntry kind retpc s = .ok t) :
    t.a = s.a ∧ t.x = s.x ∧ t.y = s.y ∧ t.d = s.d ∧ t.db = s.db ∧ t.e = s.e ∧ (s.e = true → t.pb = s.pb) := by
  rw [(interruptEntry_entryOnly h).frame]
  exact ⟨rfl, rfl, rfl, rfl, rfl, rfl, fun he => if_pos he⟩

end Entry

/-- Settles O52: the entry leaves its frame on the stack, `RTI` over that frame pulls it whole, and the flags are those
of the status byte the kind pushes. -/
theorem entryThenReturnRestores : Obligations.EntryThenReturnRestores := by
  intro kind retpc s t hw hpage hroom h
  refine ⟨interruptEntry_registers h, fun r hsp he hbytes => ?_⟩
  have H : FrameHeld s (entryFrame kind retpc s) r :=
    (interruptEntry_frameHeld h hw hroom).of_unchanged hsp he (by rwa [entryFrame_length])
  refine ⟨_, H.exec_rti hpage, ?_, ?_, ?_⟩
  · rintro (hnative | rfl)
    · rw [hnative, Flags.ofByte_pushedStatus_native]
    · exact Flags.ofByte_pushedStatus_cop _ _
  · rintro hemu rfl
    rw [hemu, Flags.ofByte_pushedStatus_brk]
  · intro hemu hkind
    rw [hemu, Flags.ofByte_pushedStatus_hardware hkind]

end Sys2Proof.Machine
end

section
/-! SUPPORT. How a step stops (`60_exceptions.md` R301, R320 to R322): as its fetch does, or as the instruction it has
fetched does; and what the host records of it. -/

namespace Sys2Proof.Machine

open Sys2Proof

/-! ## The stops of an instruction, by cause -/

/-- The fatal errors of an instruction: those of the Bus, and the decode error of `WDM`. -/
theorem exec_fault_cause {i : Instr} {s : State} {reason : FatalReason} {bus : Bus}
    (h : exec i s = .fault (.fatal reason bus)) :
    (∃ addr, reason = .unmappedAddress addr ∧ raisesUnmapped s.cfg addr) ∨
    (∃ addr, reason = .writeToReadOnly addr ∧ raisesReadOnly s.cfg addr) ∨
    (reason = .decodeError 0x42 ∧ i.mnemonic = .wdm ∧ s.cfg.wdmBehaviour = .fatal) := by
  rcases exec_stops i s (.fault (.fatal reason bus)) h with ⟨hcause, -⟩ | ⟨he, hwdm⟩ | ⟨he, -⟩
  · exact hcause.imp_right .inl
  · cases he
    exact .inr (.inr ⟨rfl, hwdm⟩)
  · cases he

/-- The refusals of an instruction: a register window, and decimal mode. -/
theorem exec_refused_cause {i : Instr} {s : State} {r : Refusal} (h : exec i s = .refused r) :
    (∃ addr, r = .registerWindow addr ∧ locate s.cfg addr = .registerWindow ∧ s.cfg.regWindowPolicy = .refuse) ∨
    (r = .decimalMode ∧ i.mnemonic ∈ [.adc, .sbc] ∧ s.cfg.decimalArith = .refuse ∧ s.p.d = true) := by
  rcases exec_stops i s (.refused r) h with hwindow | ⟨he, -⟩ | ⟨he, hdecimal⟩
  · exact .inl hwindow
  · cases he
  · cases he
    exact .inr ⟨rfl, hdecimal⟩

/-! ## The stops of a fetch -/

/-- A fetch is fatal at an address that cannot be read, and for no other reason. -/
theorem fetchInstr_fault_cause {s : State} {reason : FatalReason} {bus : Bus}
    (h : fetchInstr s = .error (.fault (.fatal reason bus))) :
    ∃ addr, reason = .unmappedAddress addr ∧ raisesUnmapped s.cfg addr := by
  obtain ⟨hbus, hreason⟩ := fetchInstr_stops s
  obtain ⟨addr, rfl⟩ := hreason reason bus h
  obtain ⟨⟨_, hsame, hraises⟩ | ⟨_, hother, -⟩, -⟩ := hbus _ h
  · cases hsame
    exact ⟨addr, rfl, hraises⟩
  · cases hother

/-! ## The stops of a step -/

theorem Stop.answer_injective : Function.Injective Stop.answer := by
  intro e e' h
  cases e <;> cases e' <;> cases h <;> rfl

/-- A step that stops has not ended its fetch, or its instruction. -/
theorem step_eq_answer {s : State} {e : Stop} (h : step s = e.answer) :
    fetchInstr s = .error e ∨ ∃ i u, fetchInstr s = .ok (i, u) ∧ exec i u = e.answer := by
  by_cases hrun : s.run = .running
  · rcases step_of_running hrun with ⟨i, u, hfetch, hstep⟩ | ⟨e', hfetch, hstep⟩
    · exact .inr ⟨i, u, hfetch, hstep.symm.trans h⟩
    · obtain rfl : e' = e := Stop.answer_injective (hstep.symm.trans h)
      exact .inl hfetch
  · exact absurd (h.symm.trans (step_of_not_running hrun)) (e.answer_ne_next s)

/-- A fetch leaves the parameters and the flags an instruction's stops depend on. -/
theorem fetchInstr_cfg_p {s u : State} {i : Instr} (h : fetchInstr s = .ok (i, u)) : u.cfg = s.cfg ∧ u.p = s.p := by
  rw [fetchInstr_frame h]
  exact ⟨rfl, rfl⟩

theorem step_fault_cause {s : State} {reason : FatalReason} {bus : Bus}
    (h : step s = .fault (.fatal reason bus)) :
    (∃ addr, reason = .unmappedAddress addr ∧ raisesUnmapped s.cfg addr) ∨
    (∃ i u, fetchInstr s = .ok (i, u) ∧
      ((∃ addr, reason = .writeToReadOnly addr ∧ raisesReadOnly s.cfg addr) ∨
        (reason = .decodeError 0x42 ∧ i.mnemonic = .wdm ∧ s.cfg.wdmBehaviour = .fatal))) := by
  rcases step_eq_answer (e := .fault (.fatal reason bus)) h with hfetch | ⟨i, u, hfetch, hexec⟩
  · exact .inl (fetchInstr_fault_cause hfetch)
  · rw [← (fetchInstr_cfg_p hfetch).1]
    exact (exec_fault_cause hexec).imp_right fun hcause => ⟨i, u, hfetch, hcause⟩

theorem step_refused_cause {s : State} {r : Refusal} (h : step s = .refused r) :
    (∃ addr, r = .registerWindow addr ∧ locate s.cfg addr = .registerWindow ∧ s.cfg.regWindowPolicy = .refuse) ∨
    (∃ i u, fetchInstr s = .ok (i, u) ∧
      r = .decimalMode ∧ i.mnemonic ∈ [.adc, .sbc] ∧ s.cfg.decimalArith = .refuse ∧ s.p.d = true) := by
  rcases step_eq_answer (e := .refused r) h with hfetch | ⟨i, u, hfetch, hexec⟩
  · exact .inl ((fetchInstr_stops s).1 _ hfetch)
  · obtain ⟨hcfg, hp⟩ := fetchInstr_cfg_p hfetch
    rw [← hcfg, ← hp]
    exact (exec_refused_cause hexec).imp_right fun hcause => ⟨i, u, hfetch, hcause⟩

/-! ## What the host records (R320, R322) -/

/-- A recorded fatal error shows in `run` and in the Bus. -/
theorem recordFatal_of_fault (s : State) {o : Answer} {reason : FatalReason} {bus : Bus}
    (h : o = .fault (.fatal reason bus)) : ∃ t, recordFatal s o = .next t ∧ t.run = .halted reason ∧ t.bus = bus := by
  subst h
  exact ⟨_, rfl, rfl, rfl⟩

theorem recordFatal_of_next (s : State) {o : Answer} {t : State} (h : o = .next t) : recordFatal s o = .next t := by
  subst h
  rfl

/-- Settles O59: the causes of an instruction's stops, those of a step through its fetch, and the host's record. -/
theorem onlyListedFatalErrors : Obligations.OnlyListedFatalErrors :=
  ⟨fun _ _ => ⟨fun _ _ => exec_fault_cause, fun _ => exec_refused_cause⟩,
    fun s => ⟨fun _ _ => step_fault_cause, fun _ => step_refused_cause, fun _ => recordFatal_of_next s,
      fun _ _ => recordFatal_of_fault s⟩⟩

end Sys2Proof.Machine
end

section
/-! SUPPORT. The entry sequence with its frame in RAM (`60_exceptions.md` R305, R306), and the host's `interrupt`
(R318). -/

namespace Sys2Proof.Machine

open Sys2Proof

/-! ## The entry sequence -/

section Entry

variable {kind : InterruptKind} {retpc target : Word} {s : State}

/-- A word stored outside what was pushed is still stored, whatever the registers are by then. -/
theorem Pushed.storedWord {bs : List Byte} {t : State} {addr : Addr} (P : Pushed s bs t)
    (hapart : ∀ k, k < bs.length →
      apart s addr (bank0 (pushSlot s k)) = true ∧ apart s (addr + 1) (bank0 (pushSlot s k)) = true) :
    Machine.storedWord t addr = Machine.storedWord s addr := by
  have hlo : peek t addr = peek s addr := P.other _ fun k hk => (hapart k hk).1
  have hhi : peek t (addr + 1) = peek s (addr + 1) := P.other _ fun k hk => (hapart k hk).2
  simp only [Machine.storedWord, hlo, hhi]

/-- With the frame in RAM and the vector outside it an entry answers, and this is all it changes beside the Bus. -/
theorem interruptEntry_of_storedWord (hw : s.bus.wf = true) (hroom : stackRoom s (if s.e then 3 else 4))
    (htarget : storedWord s (vectorOf s.cfg.vectors kind s.e) = some target)
    (hapart : ∀ k, k < (if s.e then 3 else 4) →
      apart s (vectorOf s.cfg.vectors kind s.e) (bank0 (pushSlot s k)) = true ∧
      apart s (vectorOf s.cfg.vectors kind s.e + 1) (bank0 (pushSlot s k)) = true) :
    ∃ t, interruptEntry kind retpc s = .ok t ∧
      t = { s with bus := t.bus, sp := pushSlot s (if s.e then 3 else 4), pc := target,
                   pb := if s.e then s.pb else 0x00, p := { s.p with i := true, d := false } } := by
  obtain ⟨t1, t2, t3, hbank, hpc, hstatus, P⟩ := entry_pushed kind retpc s hw hroom
  have hcfg : t3.cfg = s.cfg := by rw [P.frame]
  have he : t3.e = s.e := by rw [P.frame]
  have hvector : storedWord t3.enterHandler (vectorOf t3.cfg.vectors kind t3.e) = some target := by
    rw [hcfg, he]
    exact (P.storedWord (by rwa [entryFrame_length])).trans htarget
  refine ⟨{ t3.enterHandler with pc := target }, ?_, ?_⟩
  · simp only [interruptEntry, hbank, hpc, hstatus, readWord_of_storedWord hvector, ok_bind, pure_eq_ok]
  · rw [← entryFrame_length kind retpc s, P.frame]
    rfl

theorem entryFrame_native (he : s.e = false) :
    entryFrame kind retpc s = [s.pb, highByte retpc, lowByte retpc, s.p.toByte] := by
  simp only [entryFrame, pushedStatus, he, Bool.false_eq_true, if_false, List.singleton_append]

theorem entryFrame_emulation (he : s.e = true) :
    entryFrame kind retpc s = [highByte retpc, lowByte retpc, pushedStatus kind true s.p.toByte] := by
  simp only [entryFrame, he, if_true, List.nil_append]

end Entry

/-- Settles O49: the entry answers (`interruptEntry_of_storedWord`), its frame lies in its slots
(`interruptEntry_frameHeld`), and it spares every other byte (`interruptEntry_spares`). -/
theorem interruptEntrySavesAndVectors : Obligations.InterruptEntrySavesAndVectors := by
  intro kind retpc target s hw hroom htarget hapart
  obtain ⟨t, hentry, hframe⟩ := interruptEntry_of_storedWord (retpc := retpc) hw hroom htarget hapart
  have H := interruptEntry_frameHeld hentry hw hroom
  refine ⟨t, hentry, hframe, fun he => ?_, fun he => ?_, (interruptEntry_spares hentry).peek⟩
  · rw [entryFrame_native he] at H
    exact ⟨H.slot 0 (by simp), H.slot 1 (by simp), H.slot 2 (by simp), H.slot 3 (by simp)⟩
  · rw [entryFrame_emulation he] at H
    refine ⟨H.slot 0 (by simp), H.slot 1 (by simp), ?_⟩
    cases kind <;> exact H.slot 2 (by simp)

/-! ## The host's `interrupt` -/

section Interrupt

variable {kind : HardwareInterrupt} {s : State}

theorem interrupt_of_no_inputs (h : s.cfg.interruptInputs = false) : interrupt kind s = .refused .noInterruptInputs := by
  simp only [interrupt, h, Bool.false_eq_true, if_false]

/-- Stopped and Halted ignore every interrupt. -/
theorem interrupt_of_stopped_or_halted (hinputs : s.cfg.interruptInputs = true)
    (hrun : s.run = .stopped ∨ ∃ reason, s.run = .halted reason) : interrupt kind s = .next s := by
  rcases hrun with hrun | ⟨reason, hrun⟩ <;> simp only [interrupt, hinputs, hrun, if_true]

/-- Running and Waiting take the entry sequence, unless the interrupt is a masked `IRQ`. -/
theorem interrupt_of_awake (hinputs : s.cfg.interruptInputs = true) (hrun : s.run = .running ∨ s.run = .waiting) :
    interrupt kind s = if kind = .irq ∧ s.p.i = true then .next { s with run := .running }
      else recordFatal s (finish (interruptEntry kind.kind s.pc { s with run := .running })) := by
  rcases hrun with hrun | hrun <;> simp only [interrupt, hinputs, hrun, if_true]

theorem interrupt_of_masked (hinputs : s.cfg.interruptInputs = true) (hrun : s.run = .running ∨ s.run = .waiting)
    (hmask : s.p.i = true) : interrupt .irq s = .next { s with run := .running } :=
  (interrupt_of_awake hinputs hrun).trans (if_pos ⟨rfl, hmask⟩)

theorem interrupt_of_taken (hinputs : s.cfg.interruptInputs = true) (hrun : s.run = .running ∨ s.run = .waiting)
    (htaken : kind = .nmi ∨ s.p.i = false) :
    interrupt kind s = recordFatal s (finish (interruptEntry kind.kind s.pc { s with run := .running })) := by
  refine (interrupt_of_awake hinputs hrun).trans (if_neg ?_)
  rintro ⟨rfl, hmask⟩
  simp [hmask] at htaken

end Interrupt

/-- Settles O53: an interrupt that is taken is the recorded entry sequence (`interrupt_of_taken`). -/
theorem hostInterruptFollowsMask : Obligations.HostInterruptFollowsMask := by
  intro s
  refine ⟨fun hinputs kind => interrupt_of_no_inputs hinputs, fun hinputs =>
    ⟨fun hrun kind => interrupt_of_stopped_or_halted hinputs hrun, fun hrun =>
      ⟨interrupt_of_masked hinputs hrun, fun kind htaken => ?_, rfl, rfl⟩⟩⟩
  rw [interrupt_of_taken hinputs hrun htaken]
  exact ⟨fun t hentry => recordFatal_of_next s (finish_eq_next.mpr hentry),
    fun reason bus hentry => recordFatal_of_fault s (by rw [hentry]; rfl)⟩

end Sys2Proof.Machine
end

section
/-! SUPPORT. Reset (`70_reset_and_hazards.md` R340 to R342): construction and a later reset are the one reset sequence,
with different draws. -/

namespace Sys2Proof.Machine

open Sys2Proof

/-- A reset over a stored vector: its register effects, and the counter from the vector. -/
theorem resetWith_of_storedWord {draws : Draws} {s : State} {entry : Word}
    (h : storedWord s s.cfg.vectors.reset = some entry) :
    resetWith draws s = .next { resetRegisters draws s with pc := entry } := by
  have hread : readWord s.cfg.vectors.reset (resetRegisters draws s) = .ok (entry, resetRegisters draws s) :=
    readWord_of_storedWord (s := resetRegisters draws s) h
  exact recordFatal_of_next _ (finish_eq_next.mpr (bind_eq_ok.mpr ⟨_, hread, rfl⟩))

/-- A later reset, but for Halted, is the reset sequence with free values. -/
theorem hostReset_of_not_halted {s : State} (h : ∀ reason, s.run ≠ .halted reason) :
    hostReset s = resetWith (freeDraws s.draws) { s with draws := s.draws + 11 } := by
  cases hrun : s.run with
  | halted reason => exact absurd hrun (h reason)
  | running | waiting | stopped => simp only [hostReset, hrun]

theorem hostReset_of_halted {s : State} {reason : FatalReason} (h : s.run = .halted reason) : hostReset s = .next s := by
  simp only [hostReset, h]

/-- Settles O9: construction is the reset sequence with the draws given. -/
theorem constructionLeavesResetValues : Obligations.ConstructionLeavesResetValues := fun _ _ _ h =>
  resetWith_of_storedWord h

/-- Settles O10: the reset sequence, with free values of which only that they reach no specified field is used. -/
theorem laterResetSetsSpecifiedFields : Obligations.LaterResetSetsSpecifiedFields := by
  intro s
  refine ⟨fun entry hentry hrun => ?_, fun reason hrun => hostReset_of_halted hrun⟩
  have hreset := resetWith_of_storedWord (draws := freeDraws s.draws) (s := { s with draws := s.draws + 11 }) hentry
  rw [← hostReset_of_not_halted hrun] at hreset
  exact ⟨_, hreset, rfl, rfl, rfl, rfl, rfl, rfl, rfl, rfl, highByte_mkWord _ _, rfl, rfl, rfl, rfl⟩

end Sys2Proof.Machine
end
